-- ==== Sys2Proof/Word.lean ====
section
/-!
DEFINITION. Word types of the ZS-7716 and their plainest arithmetic: the byte, the 32-bit register, the 64-bit time, the
128-bit native word (00_scope.md, 01_conventions.md Table 01-1), and reading or writing a bit range [msb:lsb].
-/
namespace Sys2Proof

/-- One byte. -/
abbrev Byte := BitVec 8

/-- A peripheral register or a scalar register (01_conventions.md, R6; 06, R128). -/
abbrev Word := BitVec 32

/-- The native word: a channel sample, an ECC word, a lane register, a command word, a mailbox word (Table 00-1). -/
abbrev Native := BitVec 128

/-- LINE_TIME: ticks of the 24 MHz reference (10, R235). -/
abbrev Time := BitVec 64

/-- One bit as a vector of one bit. -/
def bit (b : Bool) : BitVec 1 := BitVec.ofBool b

/-- The bit range [lo + n - 1 : lo] of a value, bit 0 least significant (Table 01-1). -/
def field {w : Nat} (x : BitVec w) (lo n : Nat) : BitVec n := x.extractLsb' lo n

/-- A value with its bit range [lo + n - 1 : lo] replaced by `v`. -/
def putField {w : Nat} (x : BitVec w) (lo : Nat) {n : Nat} (v : BitVec n) : BitVec w :=
  (x &&& ~~~ (((BitVec.allOnes n).setWidth w) <<< lo)) ||| ((v.setWidth w) <<< lo)

/-- A value placed at bit `lo` of an otherwise zero word. -/
def place {n : Nat} (w : Nat) (lo : Nat) (v : BitVec n) : BitVec w := (v.setWidth w) <<< lo

/-- The word with only bit `i` set. -/
def oneHot (w i : Nat) : BitVec w := BitVec.twoPow w i

/-- A value with bit `i` made `b`. -/
def putBit {w : Nat} (x : BitVec w) (i : Nat) (b : Bool) : BitVec w :=
  if b then x ||| BitVec.twoPow w i else x &&& ~~~ BitVec.twoPow w i

/-- The numbers of the bits that are 1, in ascending order. -/
def setBits {w : Nat} (x : BitVec w) : List Nat := (List.range w).filter (fun i => x.getLsbD i)

/-- How many bits are 1. -/
def popCount {w : Nat} (x : BitVec w) : Nat := (setBits x).length

/-- The number of the lowest bit that is 1, if any. -/
def lowestBit {w : Nat} (x : BitVec w) : Option Nat := (setBits x).head?

/-- Addition that stops at the all-ones value (saturating fields of the register tables). -/
def satInc {w : Nat} (x : BitVec w) : BitVec w := if x = BitVec.allOnes w then x else x + 1

end Sys2Proof
end

