-- ==== Sys2Proof/Config.lean ====
section
/-!
DEFINITION. What an implementation fixes and what the spec leaves open. Every constant here that is opaque has no body: no
proof can see its value, so a claim holds whatever it is. The log entries of notes/assumptions name each one.
-/
namespace Sys2Proof.Config

/-- BLK_ID.STEP of a block, "Design step of the block", given only as "per block" (Table 01-2; log 3). -/
opaque blkStep : Nat → BitVec 16

/-- GET_INFO word 0 STEP, the device's design step (Table 12-7; log 3). -/
opaque deviceStep : BitVec 16

/-- The Boot ROM's stored words, "fixed at manufacture" (R89; log 3). -/
opaque romWord : Nat → Native

/-- The ROM key hash selected by KEY_INDEX (R284 check 2; log 3). -/
opaque romKeyHash : BitVec 2 → BitVec 256

/-- Whether a result in flight to a lane register has landed when an instruction issued inside its shadow reads the register: more
cycles than instructions may have passed, and R138 forbids relying on either. The number names the read and the result (log 6). -/
opaque laneShadow : Nat → Bool

/-- Which entry a sync-table lookup uses after a change without TABLE_SYNC and before the next frame boundary: new (true) or
old (R20). The number counts such lookups (log 7). -/
opaque staleLookup : Nat → Bool

/-- The way at which an L1D starts looking for a victim, which R182 leaves open (log 18). The number counts replacements. -/
opaque victimWay : Nat → BitVec 2

/-- OSTI_WHERE of a region of the block buffers and logs, whose split among the buffers 04 does not give (log 11). -/
opaque bufferRegion : Nat → BitVec 32

/-- Values the spec leaves unstated, one for each number (log 8). -/
opaque freeNative : Nat → Native

/-- The fused ceiling of ENABLE_RATE (R216). -/
def rateCeiling : Nat := 1024

/-- Ticks of LINE_TIME in a millisecond and in a microsecond (R235: 24 MHz). -/
def ticksPerMs : Nat := 24000
def ticksPerUs : Nat := 24

end Sys2Proof.Config
end

