-- ==== Sys2Proof/Syntax.lean ====
section
/-!
DEFINITION. The commands: Instr has one constructor per row of spec/opcode_table.json, in the table's order, with the row's
operands: what the agent that causes the step brings with it. Operands are fields as the spec encodes them.
-/
namespace Sys2Proof

/-- A cluster: 0 to 3 VOICE_n, 4 the Steward (06, VID.CLUSTER of Table 06-1). Also a caching agent of Chord (08, R177). -/
abbrev Cl := Fin 5

/-- A Voice number. -/
abbrev Vc := Fin 4

/-- A trunk number. -/
abbrev TrkId := Fin 16

/-- A Chord slice. -/
abbrev SliceId := Fin 4

/-- A block code, base[23:16] of Table 04-13 (01, BLK_ID.CODE). -/
abbrev BlkId := Fin 39

/-- A scalar or lane register field of an instruction word (06, Table 06-2). -/
abbrev RegF := BitVec 5

/-- A Chord line: bits [31:6] of its address (08, R177). -/
abbrev Line := BitVec 26

/-- An agent of Chord by its INITIATOR code: 0 to 3 Voices, 4 Steward, 5 Mirror engine, 6 mailbox DMA, 7 xSPI DMA,
8 Governor command fetch (08, R177). -/
abbrev Agent := Fin 9

/-- Initiators of register-space accesses that own a counter snapshot (01, R8). -/
inductive Initiator where
  | steward
  | voice (v : Vc)
  | hmbxDma
  | jtag
deriving DecidableEq, Repr

/-- Access widths of the bus (01, R6; 04, R77). -/
inductive Size where
  | b1 | b2 | b4 | b16
deriving DecidableEq, Repr

/-- The fault sources of Table 09-7, in the order of their IDs 0 to 59 (09, R225). -/
inductive FaultSource where
  | estop | estopDisc | armDisc | outRb | govCheck | cmdPoison
  | cmdFormat | cmdOrigin | cmdOverflow | cmdState | cmdLockout | cmdClamp
  | cmdRate | clampCrc | clampLive | clampEntry | frameOverrun | rideExpired
  | lockstep | unisonSplit | unisonRail | unisonProbe | voiceWdog | corePoison
  | stwVote | stwVoter | stwDual | stwDegraded | stwWdog | stwLost
  | chmapCrc | memCe | fabricCe | memUe | memAddr | fabricUe
  | ostiMarch | ostiStall | cohTrack | cohDegrade | cohSlice | cohProto
  | cohStray | cohLost | cohAged | trkLinkDown | trkLinkLost | discFail
  | discMismatch | concLost | seqConflict | misroute | sentinelTrip | trkEngine
  | pairLink | pairTime | roleConflict | supply | thermal | clock
deriving DecidableEq, Repr

/-- The PLLs (10, Table 10-1). -/
inductive Pll where
  | line | fab | stw | mirl
  | voice (v : Vc)
deriving DecidableEq, Repr

/-- The monitored rails (14, Table 14-8). -/
inductive Rail where
  | vddCore | vddAon | vddio3v3 | vddio1v8 | vddLvds | vdda
deriving DecidableEq, Repr

/-- A Voice core's output bundle in one cycle: the content of each group of Table 05-2 (05, R107). -/
structure Bundle where
  /-- Instruction side: fetch address; ITCM and L1I control. -/
  fetch : BitVec 32
  iControl : BitVec 8
  /-- Data request: address, data, byte enables, kind, poison. -/
  dAddr : BitVec 32
  dData : BitVec 128
  dEnables : BitVec 16
  dKind : BitVec 8
  dPoison : Bool
  /-- Score and Verdict port B: address, data, enables, kind. -/
  bAddr : BitVec 32
  bData : BitVec 128
  bEnables : BitVec 16
  bKind : BitVec 4
  /-- Coherence egress: message type, address, data, poison. -/
  cohType : BitVec 8
  cohAddr : BitVec 32
  cohData : BitVec 128
  cohPoison : Bool
  /-- Command push: command word, valid, range index. -/
  cmdWord : BitVec 128
  cmdValid : Bool
  cmdRange : BitVec 6
  /-- Commit record: commit address, destination, result, poison tag, commit valid. -/
  commitAddr : BitVec 32
  commitDest : BitVec 6
  commitResult : BitVec 128
  commitTag : Bool
  commitValid : BitVec 2
  /-- Control: FRAME_DONE and range, Cue post and cancel, ICU acknowledge, exception. -/
  frameDone : BitVec 7
  cue : BitVec 16
  icuAck : BitVec 8
  exception : Bool
deriving DecidableEq, Repr

/-- A comparator of a Voice (05, R107, R108): the bits in which its own copy of the compared pair is inverted, those it does not see, and
the dual-rail code it is stuck at. -/
structure Comparator where
  flips : BitVec 1024
  blind : BitVec 1024
  rail : Option (BitVec 2)
deriving DecidableEq, Repr

/-- The two bundles compared in a cycle: the lead core's, and the trailing core's two cycles later (05, R107). -/
structure BundlePair where
  lead : Bundle
  trail : Bundle
deriving DecidableEq, Repr

/-- Life-cycle states (11, Table 11-10). -/
inductive LifeCycle where
  | blank | factory | develop | deployed | retired
deriving DecidableEq, Repr

/-- The fuses as step 1 of the option phase loads them into the shadow (11, R258, R270, R278, R284; 09, R226; 12, Table 12-7). -/
structure Fuses where
  /-- Thermometer field of each source of Table 11-2 (R258). -/
  reach : Vector (BitVec 3) 10
  /-- Fused floor class of each fault source, 0 to 6, by ID (R226). -/
  floor : Vector (BitVec 3) 60
  /-- Revoked Drunor keys (R284). -/
  revoked : BitVec 4
  /-- Minimum SVN of a Drunor image (R284). -/
  minSvnDrunor : BitVec 8
  /-- Minimum SVN of an application image (R284). -/
  minSvnApp : BitVec 8
  /-- Customer key hash (R284). -/
  customerKey : BitVec 256
  /-- Serial number (Table 12-7). -/
  serial : BitVec 64
  /-- Golden signatures of the LBIST slices S4, S5 and S6 (R278; log 88). -/
  golden : Vector (BitVec 32) 3
deriving DecidableEq, Repr

/-- What the option phase reads in its four steps (11, Table 11-6). -/
structure OptionReading where
  /-- The fuses, when every bank's CRC-32C matches (step 1). -/
  fuses : Option Fuses
  /-- CLKMODE[1:0] at [3:2] and BOOTSEL[1:0] at [1:0]: the 16 samples of the first try and of each retry, in order (step 2,
  R272). -/
  straps : List (List (BitVec 4))
  /-- The 8 conversions of OPTR (step 3, R274). -/
  optr : List (BitVec 10)
  /-- The two life-cycle copies, each when its CRC matches (step 4, R276). -/
  lcA : Option LifeCycle
  lcB : Option LifeCycle
  /-- The reference qualified within 10 ms of POR (R273). -/
  refQualified : Bool
  /-- RESET_N is held low: the phase does not start, and the hold counts as one request (R270). -/
  resetHeld : Bool
deriving DecidableEq, Repr

/-- The codes of UNA and UNB in each cycle of a Voice's injections, UNA at [1:0] and UNB at [3:2] of a nibble (05, R111, R126):
the common injections, from the cycle before the first to the cycle after the last, and the injection cycles of the
one-sided ones, segment by segment, UNA's first. -/
structure UnisonRun where
  common : List (BitVec 4)
  sided : List (BitVec 4)
deriving DecidableEq, Repr

/-- What one BIST slice finds (11, Table 11-11). -/
structure BistResult where
  /-- A unit failed whose row says "fatal" without naming the units below. -/
  fatal : Bool
  /-- Voices whose memories failed (S3). -/
  voices : BitVec 4
  /-- Trunks whose buffer or loopback failed (S3, S7). -/
  trunks : BitVec 16
  /-- Bit s Tag Mirror s, bit 4 + s Vector Directory s. -/
  trackers : BitVec 8
  /-- PLL_MIRL or the Mirror loopback failed (S2, S7). -/
  mirl : Bool
  /-- The MISR signature of each unit under test of an LBIST slice: the Steward cores, the Voices, or Chord and the interconnect
  (S4 to S6, R278). -/
  signatures : List (BitVec 32)
  /-- Each Voice's injections (S8, R111). -/
  unison : Vector UnisonRun 4
  /-- The Steward's voter pair failed (S8). -/
  voters : Bool
  /-- How long the slice would run, in ms. -/
  ms : BitVec 8
deriving DecidableEq, Repr

/-- The results of the calibration (11, Table 11-12). -/
structure Calibration where
  /-- ADC offset in codes, and gain error in units of 0.01 %. -/
  adcOffset : Int
  adcGain : Int
  /-- The sensors' readings in units of 0.01 degrees. -/
  sensors : List Int
  /-- The LVDS receiver termination after trim, in units of 0.01 ohm. -/
  termination : Nat
  /-- The RC's error after trim, in ppm. -/
  rc : Int
deriving DecidableEq, Repr

/-- An image the Boot ROM can check (11, R283, R285): a flash slot's, or what the host or the peer downloaded. -/
inductive ImageSource where
  | slotA | slotB | download
deriving DecidableEq, Repr

/-- An event that Drunor pushes (12, Table 12-11, R317): built from what the device holds, or as the words it writes. -/
inductive Event where
  | entries (es : List Native)
  | ready
  | voiceOut (v : Vc)
  | voiceBack (v : Vc)
  | govState
  | season
  | pair
  | time
deriving DecidableEq, Repr

/-- The header fields that every Mirror Link packet carries (13, Table 13-1). -/
structure PktHdr where
  seq : BitVec 8
  ack : BitVec 8
  ackV : Bool
  frame : BitVec 16
deriving DecidableEq, Repr

/-- A plan for one live-Voice mask (05, R121, Table 05-7 PLAN_m). -/
structure Plan where
  /-- Two bits per range, range r at [2r + 1 : 2r]. -/
  owners : BitVec 128
  /-- SWEEP_SEL of the plan. -/
  sweep : BitVec 2
  /-- Shed trunks. -/
  shed : BitVec 16
  valid : Bool
deriving DecidableEq, Repr

/-- A command of the table: one constructor per row, in order. -/
inductive Instr where
  /-- REGISTER_WRITE: A register-space write by `i`; `hw` is the hardware's update of the same registers in the same cycle (R13): the bits it sets (W1C), a non-zero lane for an event (CNT) or a lost update (RWH). -/
  | registerWrite (i : Initiator) (addr : Word) (size : Size) (data : Native) (poison : Bool) (hw : Native)
  /-- COUNTER_SNAPSHOT_READ: A 32-bit read of a counter's low half; `wrap`: an event increments the counter in the same cycle (R8, R16). -/
  | counterSnapshotRead (i : Initiator) (addr : Word) (wrap : Bool)
  /-- TABLE_SYNC: A write of SYNC. -/
  | tableSync (b : BlkId)
  /-- TABLE_SYNC_DONE: The reload of the block's sync tables completes. -/
  | tableSyncDone (b : BlkId)
  /-- FRAME_BOUNDARY: The frame marker of the next frame. -/
  | frameBoundary
  /-- FRAME_OPEN_FILL: The frame-open fill completes. -/
  | frameOpenFill
  /-- HEARTBEAT: A heartbeat instant. -/
  | heartbeat
  /-- VOICE_PRE_WAKE: 40 us before a seal. -/
  | voicePreWake
  /-- FRAME_WARN: Judging deadline minus WARN_LEAD. -/
  | frameWarn
  /-- CLOCK_MONITOR_WINDOW: A 10 us window ends with `count` reference cycles against the RC's 240. -/
  | clockMonitorWindow (count : Nat)
  /-- PLL_LOCK_LOSS: A lock monitor reports. -/
  | pllLockLoss (p : Pll)
  /-- STW_WDOG: The Steward watchdog expires. -/
  | stwWdog
  /-- VOICE_WDOG: A Voice watchdog expires. -/
  | voiceWdog (v : Vc)
  /-- CRESCENDO_ARBITRATION: One arbitration, every 1 us. -/
  | crescendoArbitration
  /-- VOICE_SLEEP: SLEEP_DELAY has passed in IDLE. -/
  | voiceSleep (v : Vc)
  /-- BLOCK_WAKE: A granted requester completes its wake. -/
  | blockWake (r : Fin 29)
  /-- SUMMER_ENTRY: Every enabled trunk is UP or has failed bring-up. -/
  | summerEntry
  /-- DRAIN_COMPLETE: The AUTUMN drain finishes. -/
  | drainComplete
  /-- LT_STEP: A write of LT_STEP. -/
  | ltStep
  /-- LT_ADJ_WRITE: A write of LT_ADJ; `slewing`: the hardware decrements it in the same cycle. -/
  | ltAdjWrite (v : Word) (slewing : Bool)
  /-- KICK: A write of KICK. -/
  | kick
  /-- WDOG_KICK: A write of WDOG_KICK on a cluster. -/
  | wdogKick (c : Cl)
  /-- TRK_ENABLE: A write of ENABLE. -/
  | trkEnable (t : TrkId)
  /-- UPLINK_LOCK: 16 consecutive valid uplink characters, or the uplink is not locked at 3.5 ms. -/
  | uplinkLock (t : TrkId) (locked : Bool)
  /-- DISC_END: A DISC_END set arrives. -/
  | discEnd (t : TrkId) (count : Byte) (crc : BitVec 16) (viol : Bool)
  /-- DISC_TIMEOUT: No DISC_END within 1 ms. -/
  | discTimeout (t : TrkId)
  /-- TRK_RELINK: A write of RELINK. -/
  | trkRelink (t : TrkId)
  /-- BURST_HEADER: A burst header arrives: header bytes 0 to 7 and their CRC-16. -/
  | burstHeader (t : TrkId) (hdr : BitVec 64) (crc : BitVec 16)
  /-- RECORD_ARRIVAL: The next record of the burst completes. -/
  | recordArrival (t : TrkId) (rec : Native) (viol : Bool)
  /-- BURST_END: The burst's CRC-32C and end character arrive; `viol`: a code violation in the burst. -/
  | burstEnd (t : TrkId) (crc : Word) (viol : Bool)
  /-- RETRY_POINT: Seal minus RETRY_RES. -/
  | retryPoint (t : TrkId)
  /-- CACK: A CACK set arrives. -/
  | cack (t : TrkId) (conc : Byte) (seq : Byte) (bseqB : Byte) (status : Byte) (crc : BitVec 16) (viol : Bool)
  /-- COMMAND_TRANSMIT: The transmit stage takes the next word; `readback`: the encoded word reads back equal. -/
  | commandTransmit (t : TrkId) (readback : Bool)
  /-- CMD_ACK_TIMEOUT: The second HB after a command's transmission, unacknowledged; `bcast`: a broadcast word. -/
  | cmdAckTimeout (t : TrkId) (conc : BitVec 5) (bcast : Bool)
  /-- TRK_LINK_DOWN: Code violations or a missing K28.5 on the uplink. -/
  | trkLinkDown (t : TrkId)
  /-- TRK_RELOCK: The uplink relocks within 1 ms. -/
  | trkRelock (t : TrkId)
  /-- TRK_LINK_LOST: No relock within 1 ms. -/
  | trkLinkLost (t : TrkId)
  /-- URG_LOG_POP: A 128-bit read of URG_LOG. -/
  | urgLogPop (t : TrkId) (i : Initiator)
  /-- OSTINATO_REGION_START: PACE us after the previous start. -/
  | ostinatoRegionStart
  /-- OSTINATO_REGION_DONE: The march finishes; bit j: word j failed it. -/
  | ostinatoRegionDone (fails : BitVec 64)
  /-- OSTI_STALL: A pass longer than PASS_LIMIT seconds. -/
  | ostiStall
  /-- OSTINATO_ABORT: The revoked grant stops the march. -/
  | ostinatoAbort
  /-- MEMC_INJ_GO: A write of INJ_GO in MEMC_CTRL. -/
  | memcInjGo
  /-- CE_LOG_POP: A 128-bit read of CE_LOG. -/
  | ceLogPop (i : Initiator)
  /-- UE_LOG_POP: A 128-bit read of UE_LOG. -/
  | ueLogPop (i : Initiator)
  /-- UNISON_MISMATCH: A cycle in which the two comparators compare the cores' bundles (R107). -/
  | unisonMismatch (v : Vc) (una unb : Comparator) (cores : BundlePair)
  /-- PLAN_APPLY: UNIS applies the plan of the live mask. -/
  | planApply
  /-- OUT_REQ: A write of OUT_REQ (Voice OUT_V). -/
  | outReq
  /-- REJOIN: A write of REJOIN (Voice REJOIN_V). -/
  | rejoin
  /-- STW_VOTE: Exactly one Steward core differs. -/
  | stwVote (odd : Fin 3)
  /-- STW_RESYNC: Drunor's safe point. -/
  | stwResync
  /-- STW_RESYNC_TIMEOUT: 2 ms after masking without a safe point. -/
  | stwResyncTimeout
  /-- STW_VOTER: VTA and VTB disagree, or the voter probe deviates. -/
  | stwVoter
  /-- STW_DUAL: The two cores of a dual pair mismatch. -/
  | stwDual
  /-- STW_LOST: 250 ms after a Steward L3 without its return. -/
  | stwLost
  /-- STEWARD_RETURN: Drunor is reloaded and re-authenticated after an L3. -/
  | stewardReturn
  /-- ADD: ADD (OP 0x00). -/
  | add (c : Cl) (rd rs1 rs2 : RegF)
  /-- SUB: SUB (OP 0x00). -/
  | sub (c : Cl) (rd rs1 rs2 : RegF)
  /-- AND: AND (OP 0x00). -/
  | and (c : Cl) (rd rs1 rs2 : RegF)
  /-- OR: OR (OP 0x00). -/
  | or (c : Cl) (rd rs1 rs2 : RegF)
  /-- XOR: XOR (OP 0x00). -/
  | xor (c : Cl) (rd rs1 rs2 : RegF)
  /-- SLL: SLL (OP 0x00). -/
  | sll (c : Cl) (rd rs1 rs2 : RegF)
  /-- SRL: SRL (OP 0x00). -/
  | srl (c : Cl) (rd rs1 rs2 : RegF)
  /-- SRA: SRA (OP 0x00). -/
  | sra (c : Cl) (rd rs1 rs2 : RegF)
  /-- SLT: SLT (OP 0x00). -/
  | slt (c : Cl) (rd rs1 rs2 : RegF)
  /-- SLTU: SLTU (OP 0x00). -/
  | sltu (c : Cl) (rd rs1 rs2 : RegF)
  /-- ADDI: ADDI (format I). -/
  | addi (c : Cl) (rd rs1 : RegF) (imm : BitVec 16)
  /-- ANDI: ANDI (format I). -/
  | andi (c : Cl) (rd rs1 : RegF) (imm : BitVec 16)
  /-- ORI: ORI (format I). -/
  | ori (c : Cl) (rd rs1 : RegF) (imm : BitVec 16)
  /-- XORI: XORI (format I). -/
  | xori (c : Cl) (rd rs1 : RegF) (imm : BitVec 16)
  /-- SLTI: SLTI (format I). -/
  | slti (c : Cl) (rd rs1 : RegF) (imm : BitVec 16)
  /-- LHI: LHI (format I). -/
  | lhi (c : Cl) (rd rs1 : RegF) (imm : BitVec 16)
  /-- SLLI: SLLI (OP 0x07). -/
  | slli (c : Cl) (rd rs1 : RegF) (sh : BitVec 5)
  /-- SRLI: SRLI (OP 0x07). -/
  | srli (c : Cl) (rd rs1 : RegF) (sh : BitVec 5)
  /-- SRAI: SRAI (OP 0x07). -/
  | srai (c : Cl) (rd rs1 : RegF) (sh : BitVec 5)
  /-- MUL: MUL (OP 0x08). -/
  | mul (c : Cl) (rd rs1 rs2 : RegF)
  /-- MULH: MULH (OP 0x08). -/
  | mulh (c : Cl) (rd rs1 rs2 : RegF)
  /-- MULHU: MULHU (OP 0x08). -/
  | mulhu (c : Cl) (rd rs1 rs2 : RegF)
  /-- DIV: DIV (OP 0x08). -/
  | div (c : Cl) (rd rs1 rs2 : RegF)
  /-- DIVU: DIVU (OP 0x08). -/
  | divu (c : Cl) (rd rs1 rs2 : RegF)
  /-- REM: REM (OP 0x08). -/
  | rem (c : Cl) (rd rs1 rs2 : RegF)
  /-- REMU: REMU (OP 0x08). -/
  | remu (c : Cl) (rd rs1 rs2 : RegF)
  /-- LB: LB (format I). -/
  | lb (c : Cl) (rd rs1 : RegF) (imm : BitVec 16)
  /-- LH: LH (format I). -/
  | lh (c : Cl) (rd rs1 : RegF) (imm : BitVec 16)
  /-- LW: LW (format I). -/
  | lw (c : Cl) (rd rs1 : RegF) (imm : BitVec 16)
  /-- LBU: LBU (format I). -/
  | lbu (c : Cl) (rd rs1 : RegF) (imm : BitVec 16)
  /-- LHU: LHU (format I). -/
  | lhu (c : Cl) (rd rs1 : RegF) (imm : BitVec 16)
  /-- SB: SB (format S). -/
  | sb (c : Cl) (rs2 rs1 : RegF) (imm : BitVec 16)
  /-- SH: SH (format S). -/
  | sh (c : Cl) (rs2 rs1 : RegF) (imm : BitVec 16)
  /-- SW: SW (format S). -/
  | sw (c : Cl) (rs2 rs1 : RegF) (imm : BitVec 16)
  /-- ATSWP: ATSWP (OP 0x1C). -/
  | atswp (c : Cl) (rd rs1 rs2 : RegF)
  /-- ATADD: ATADD (OP 0x1C). -/
  | atadd (c : Cl) (rd rs1 rs2 : RegF)
  /-- ATAND: ATAND (OP 0x1C). -/
  | atand (c : Cl) (rd rs1 rs2 : RegF)
  /-- ATOR: ATOR (OP 0x1C). -/
  | ator (c : Cl) (rd rs1 rs2 : RegF)
  /-- ATXOR: ATXOR (OP 0x1C). -/
  | atxor (c : Cl) (rd rs1 rs2 : RegF)
  /-- ATCAS: ATCAS (OP 0x1C). -/
  | atcas (c : Cl) (rd rs1 rs2 : RegF)
  /-- BEQ: BEQ (format B). -/
  | beq (c : Cl) (rs1 rs2 : RegF) (off : BitVec 16)
  /-- BNE: BNE (format B). -/
  | bne (c : Cl) (rs1 rs2 : RegF) (off : BitVec 16)
  /-- BLT: BLT (format B). -/
  | blt (c : Cl) (rs1 rs2 : RegF) (off : BitVec 16)
  /-- BGE: BGE (format B). -/
  | bge (c : Cl) (rs1 rs2 : RegF) (off : BitVec 16)
  /-- BLTU: BLTU (format B). -/
  | bltu (c : Cl) (rs1 rs2 : RegF) (off : BitVec 16)
  /-- BGEU: BGEU (format B). -/
  | bgeu (c : Cl) (rs1 rs2 : RegF) (off : BitVec 16)
  /-- CALL: CALL (format J). -/
  | call (c : Cl) (off : BitVec 26)
  /-- CALLR: CALLR (format I). -/
  | callr (c : Cl) (rd rs1 : RegF) (imm : BitVec 16)
  /-- LOOP: LOOP (format LP). -/
  | loop (c : Cl) (gs nm1 : RegF) (count : BitVec 16)
  /-- SRR: SRR: system register n[11:0]. -/
  | srr (c : Cl) (rd : RegF) (n : BitVec 16)
  /-- SRW: SRW: system register n[11:0]. -/
  | srw (c : Cl) (rs1 : RegF) (n : BitVec 16)
  /-- TRAP: TRAP. -/
  | trap (c : Cl) (rs2 : RegF)
  /-- RETI: RETI. -/
  | reti (c : Cl)
  /-- WAIT: WAIT. -/
  | wait (c : Cl)
  /-- FENCE: FENCE. -/
  | fence (c : Cl)
  /-- IFLUSH: IFLUSH. -/
  | iflush (c : Cl)
  /-- FDONE: FDONE. -/
  | fdone (c : Cl) (gs : RegF)
  /-- LMOV: LMOV. -/
  | lmov (c : Cl) (vd va : RegF)
  /-- LAND: LAND. -/
  | land (c : Cl) (vd va vb : RegF)
  /-- LOR: LOR. -/
  | lor (c : Cl) (vd va vb : RegF)
  /-- LXOR: LXOR. -/
  | lxor (c : Cl) (vd va vb : RegF)
  /-- LADD_W: LADD.W. -/
  | laddW (c : Cl) (vd va vb : RegF)
  /-- LSUB_W: LSUB.W. -/
  | lsubW (c : Cl) (vd va vb : RegF)
  /-- LSPLAT: LSPLAT. -/
  | lsplat (c : Cl) (vd gs : RegF)
  /-- LINS: LINS. -/
  | lins (c : Cl) (vd gs : RegF) (lane : BitVec 2)
  /-- LSHL: LSHL. -/
  | lshl (c : Cl) (vd va : RegF) (n : BitVec 4)
  /-- LSHR: LSHR. -/
  | lshr (c : Cl) (vd va : RegF) (n : BitVec 4)
  /-- LMAC_P: LMAC.P. -/
  | lmacP (c : Cl) (vd va vb : RegF)
  /-- LMAC_D: LMAC.D. -/
  | lmacD (c : Cl) (vd va vb : RegF)
  /-- LCRC: LCRC. -/
  | lcrc (c : Cl) (gd va : RegF)
  /-- JUDGE: JUDGE. -/
  | judge (c : Cl) (gd va vb : RegF)
  /-- LEXT: LEXT (format X). -/
  | lext (c : Cl) (gd va : RegF) (pos : BitVec 7) (wm1 : BitVec 5) (sx : Bool) (zero : BitVec 3)
  /-- LLD: LLD. -/
  | lld (c : Cl) (vd rs1 : RegF) (imm : BitVec 16)
  /-- LST: LST. -/
  | lst (c : Cl) (vs rs1 : RegF) (imm : BitVec 16)
  /-- CPUSH: CPUSH. -/
  | cpush (c : Cl) (vd gs : RegF)
  /-- EGRESS_RELEASE: The oldest held transaction leaves. -/
  | egressRelease (v : Vc)
  /-- EGRESS_ACK: The target acknowledges the oldest released transaction. -/
  | egressAck (v : Vc)
  /-- STORE_LATE: STORE_LATE is taken. -/
  | storeLate (c : Cl)
  /-- INTERRUPT_ENTRY: Entry; `inDivide`: the instruction at PC is a divide that runs; `late`: sources that become pending before the vector is read. -/
  | interruptEntry (c : Cl) (inDivide : Bool) (late : BitVec 64)
  /-- WAIT_WAKE: A core in WAIT resumes. -/
  | waitWake (c : Cl)
  /-- ICU_SET: A write of ICU_SET_0 or ICU_SET_1. -/
  | icuSet (c : Cl) (hi : Bool) (mask : Word)
  /-- CUE_POST: A write of CUE_POST; `cancel`: slots cancelled in the same cycle. -/
  | cuePost (c : Cl) (mask : Word) (cancel : Word)
  /-- CUE_CANCEL: A write of CUE_CANCEL; `posts`: posts of the same cycle. -/
  | cueCancel (c : Cl) (mask : Word) (posts : List Word)
  /-- CUE_NEXT: A read of CUE_NEXT with the posts and cancels of the same cycle. -/
  | cueNext (c : Cl) (posts : List Word) (cancel : Word)
  /-- ARB_CFG_WRITE: A write of ARB_CFG. -/
  | arbCfgWrite (i : Initiator) (data : Word)
  /-- ASK_SHARE: AskShare reaches its home. -/
  | askShare (a : Cl) (line : Line) (way : BitVec 2)
  /-- ASK_OWN: AskOwn reaches its home. -/
  | askOwn (a : Cl) (line : Line) (way : BitVec 2)
  /-- ASK_UPGRADE: AskUpgrade reaches its home. -/
  | askUpgrade (a : Cl) (line : Line) (way : BitVec 2)
  /-- ASK_PEEK: AskPeek of a non-caching agent. -/
  | askPeek (a : Agent) (line : Line)
  /-- ASK_PUT: AskPut of a non-caching agent; its CarryPut follows. -/
  | askPut (a : Agent) (line : Line)
  /-- RETIRE_DIRTY: RetireDirty reaches its home. -/
  | retireDirty (a : Cl) (line : Line)
  /-- RETIRE_CLEAN: RetireClean reaches its home. -/
  | retireClean (a : Cl) (line : Line)
  /-- SLICE_MODE_SWITCH: The slice switches mode. -/
  | sliceModeSwitch (s : SliceId)
  /-- PROBE_SHARE: ProbeShare reaches a cache. -/
  | probeShare (a : Cl) (line : Line)
  /-- PROBE_TAKE: ProbeTake reaches a cache. -/
  | probeTake (a : Cl) (line : Line)
  /-- PROBE_KILL: ProbeKill reaches a cache. -/
  | probeKill (a : Cl) (line : Line)
  /-- PROBE_EVICT: ProbeEvict reaches a cache. -/
  | probeEvict (a : Cl) (line : Line)
  /-- ACK_GONE: AckGone reaches the home. -/
  | ackGone (a : Cl) (line : Line) (lost : Bool)
  /-- ACK_KEPT: AckKept reaches the home. -/
  | ackKept (a : Cl) (line : Line)
  /-- CARRY_DIRTY: CarryDirty reaches the home; `shared`: RESULT is S. -/
  | carryDirty (a : Cl) (line : Line) (data : BitVec 512) (poison : BitVec 4) (shared : Bool)
  /-- CARRY_PUT: CarryPut reaches the home. -/
  | carryPut (a : Agent) (line : Line) (data : BitVec 512) (poison : BitVec 4) (mask : BitVec 4)
  /-- CARRY_GRANT: CarryGrant reaches a cache; `excl`: GRANT is E. -/
  | carryGrant (a : Agent) (line : Line) (data : BitVec 512) (poison : BitVec 4) (excl : Bool) (nodata : Bool)
  /-- ACK_DONE: AckDone reaches a cache. -/
  | ackDone (a : Agent) (line : Line)
  /-- ACK_STALE: AckStale reaches a cache. -/
  | ackStale (a : Cl) (line : Line)
  /-- RECLAIM_DONE: All four slices have finished the reclaim walk. -/
  | reclaimDone
  /-- FLUSH: A write of FLUSH with FLUSH_MASK. -/
  | flush (mask : BitVec 5)
  /-- FLUSH_DONE: No home tracks a line for the flushed agents. -/
  | flushDone
  /-- SLICE_FLUSH: A write of SLICE_FLUSH. -/
  | sliceFlush (s : SliceId)
  /-- SLICE_FLUSH_DONE: The slice flush ends. -/
  | sliceFlushDone (s : SliceId)
  /-- QUIESCE: A write of QUIESCE. -/
  | quiesce (s : SliceId) (on : Bool)
  /-- MODE_REQ: A write of MODE_REQ. -/
  | modeReq (s : SliceId) (m : BitVec 2)
  /-- LOST_LOG_POP: A 128-bit read of LOST_LOG. -/
  | lostLogPop (i : Initiator)
  /-- GOV_ARM: GOV_CMD ARM. -/
  | govArm
  /-- GOV_DISARM: GOV_CMD DISARM. -/
  | govDisarm
  /-- GOV_STAGE: GOV_CMD STAGE. -/
  | govStage
  /-- GOV_CONFIRM: GOV_CMD CONFIRM. -/
  | govConfirm
  /-- GOV_CLEAR_FERMATA: GOV_CMD CLEAR_FERMATA. -/
  | govClearFermata
  /-- COMMIT_OPEN: GOV_CMD COMMIT_OPEN. -/
  | commitOpen
  /-- COMMIT_CLOSE: GOV_CMD COMMIT_CLOSE. -/
  | commitClose
  /-- PERMIT_STAGE_EXPIRY: 500 ms after an accepted stage. -/
  | permitStageExpiry
  /-- ARM_INPUT_CHANGE: A new level of ARMA_N or ARMB_N is accepted. -/
  | armInputChange (chB : Bool) (high : Bool)
  /-- ESTOP_INPUT_CHANGE: A new level of ESTOPA_N or ESTOPB_N is accepted. -/
  | estopInputChange (chB : Bool) (high : Bool)
  /-- ESTOP_DISC: The ESTOP channels have differed for 50 ms. -/
  | estopDisc
  /-- ARM_DISC: The ARM channels have differed for 50 ms. -/
  | armDisc
  /-- OUTPUT_READBACK: A sample: each TRIP pin agrees with its driven wave, and the ZONE levels. -/
  | outputReadback (tripA tripB : Bool) (zone : BitVec 16)
  /-- FAULT_REPORT: A source reports. -/
  | faultReport (src : FaultSource) (inst : BitVec 4) (detail : Word)
  /-- LOG_CLR: A write of LOG_CLR. -/
  | logClr
  /-- FH_INJ_GO: A write of INJ_GO in FH_CTRL. -/
  | fhInjGo
  /-- POR: VDD_AON rises through 0.72 V. -/
  | por
  /-- BOR: A rail stays below its BOR threshold. -/
  | bor (r : Rail)
  /-- SUPPLY_EXCURSION: A rail stays outside its SUPPLY window. -/
  | supplyExcursion (r : Rail)
  /-- THERMAL: The junction exceeds 125 degrees. -/
  | thermal
  /-- RESET_N: RESET_N held low for 1 us, or (`long`) for 10 ms. -/
  | resetN (long : Bool)
  /-- RST_REQ_GO: A write of GO in RST_REQ. -/
  | rstReqGo (i : Initiator)
  /-- RESET_ASSERTION: The reset controller asserts the applied level. -/
  | resetAssertion
  /-- RESET_RELEASE: The next step of Table 11-3 runs; `cal`: what its calibration finds. -/
  | resetRelease (cal : Calibration)
  /-- OPTION_PHASE_END: The option phase ends or restarts. -/
  | optionPhaseEnd (o : OptionReading)
  /-- BIST_SLICE_END: The running BIST slice ends. -/
  | bistSliceEnd (r : BistResult)
  /-- BOOT_IMAGE_CHECK: The ROM completes the checks of an image. -/
  | bootImageCheck (src : ImageSource) (app : Bool)
  /-- BOOT_WATCHDOG: The boot watchdog expires. -/
  | bootWatchdog
  /-- READY: The conditions of READY are met. -/
  | ready
  /-- BIST_REQ_GO: A write of GO in BIST_REQ. -/
  | bistReqGo
  /-- ITCM_SEAL: A write of ITCM_SEAL. -/
  | itcmSeal (mask : BitVec 4)
  /-- WINDOW_READ: An SPI window read of n bytes. -/
  | windowRead (addr : BitVec 16) (n : Nat)
  /-- WINDOW_WRITE: An SPI window write. -/
  | windowWrite (addr : BitVec 16) (bytes : List Byte)
  /-- FAST_STATUS: A fast status of n bytes. -/
  | fastStatus (n : Nat)
  /-- RESET_FRAME: The bytes after HCS_N falls, the opcode included: 0xD5, or one that Table 12-1 does not have (R295). -/
  | resetFrame (bytes : List Byte)
  /-- STATUS_WRITE: A write of the STATUS word. -/
  | statusWrite (word : Native)
  /-- DOORBELL: A write of the doorbell word. -/
  | doorbell (word : Native)
  /-- EVENT_POP: 16 bytes of the event port are read. -/
  | eventPop
  /-- EVT_PUSH: 128-bit writes of EVT_PUSH that make up one event. -/
  | evtPush (e : Event)
  /-- HMBX_DONE: A write of DONE in HMBX_CTRL. -/
  | hmbxDone
  /-- GET_INFO: Drunor executes the command in progress. -/
  | getInfo
  /-- GET_BOOT_RECORD: Drunor executes the command in progress. -/
  | getBootRecord
  /-- LOAD_CONFIG_CHUNK: Drunor executes the command in progress. -/
  | loadConfigChunk
  /-- COMMIT_CONFIG: Drunor executes COMMIT_CONFIG with the plans it computed, PLAN_m at index m (R121). -/
  | commitConfig (plans : Vector Plan 16)
  /-- READ_CONFIG_DIGEST: Drunor executes the command in progress. -/
  | readConfigDigest
  /-- ARM: Drunor executes the command in progress. -/
  | arm
  /-- DISARM: Drunor executes the command in progress. -/
  | disarm
  /-- PERMIT_STAGE: Drunor executes the command in progress. -/
  | permitStage
  /-- PERMIT_CONFIRM: Drunor executes the command in progress. -/
  | permitConfirm
  /-- CHANNEL_COMMAND: Drunor executes the command in progress. -/
  | channelCommand
  /-- READ_CHANNELS: Drunor executes the command in progress. -/
  | readChannels
  /-- READ_SUMMARY: Drunor executes the command in progress. -/
  | readSummary
  /-- READ_JOURNAL: Drunor executes the command in progress. -/
  | readJournal
  /-- SET_TIME_SLEW: Drunor executes the command in progress. -/
  | setTimeSlew
  /-- SET_TIME_STEP: Drunor executes the command in progress. -/
  | setTimeStep
  /-- CLEAR_FERMATA: Drunor executes the command in progress. -/
  | clearFermata
  /-- RUN_DIAG_BIST: Drunor executes the command in progress. -/
  | runDiagBist
  /-- RUN_DIAG_VOICE_RETURN: Drunor executes the command in progress. -/
  | runDiagVoiceReturn
  /-- RUN_DIAG_FAULT_INJECT: Drunor executes the command in progress. -/
  | runDiagFaultInject
  /-- RUN_DIAG_MEM_INJECT: Drunor executes the command in progress. -/
  | runDiagMemInject
  /-- RUN_DIAG_RELINK: Drunor executes the command in progress. -/
  | runDiagRelink
  /-- FW_UPDATE_BEGIN: Drunor executes the command in progress. -/
  | fwUpdateBegin
  /-- FW_UPDATE_DATA: Drunor executes the command in progress. -/
  | fwUpdateData
  /-- FW_UPDATE_END: FW_UPDATE_END; `flashFail`: 0, or the FLASH detail of a failing erase, program or read-back. -/
  | fwUpdateEnd (flashFail : BitVec 2)
  /-- LOAD_APP: Drunor executes LOAD_APP. -/
  | loadApp
  /-- PAIR_STATUS: Drunor executes PAIR_STATUS. -/
  | pairStatus
  /-- RESET_DEVICE: Drunor executes RESET_DEVICE. -/
  | resetDevice
  /-- RESET_DEVICE_PEER: Drunor executes RESET_DEVICE with W0 bit 8 set. -/
  | resetDevicePeer
  /-- DEFERRED_RESET_REQUEST: 1 ms after RESET_DEVICE's DONE. -/
  | deferredResetRequest
  /-- MIRL_ENABLE: A write of ENABLE in MIRL_CTRL. -/
  | mirlEnable (on : Bool)
  /-- MIRL_RELINK: A write of RELINK in MIRL_CTRL. -/
  | mirlRelink
  /-- MIRL_LINK_UP: 16 valid characters and a valid STATE. -/
  | mirlLinkUp
  /-- MIRL_LINK_LOST: No valid packet for the absence time. -/
  | mirlLinkLost
  /-- MIRL_RETRAIN: Character lock lost for more than 100 us. -/
  | mirlRetrain
  /-- MIRL_RETX_TIMEOUT: 20 us without acknowledgement advance. -/
  | mirlRetxTimeout
  /-- MIRL_ACK: An ACK set. -/
  | mirlAck (seq : Byte)
  /-- MIRL_NAK: A NAK set. -/
  | mirlNak (seq : Byte)
  /-- STATE: A STATE packet. -/
  | state (h : PktHdr) (arg : BitVec 64) (w0 w1 : Native)
  /-- HELLO: A HELLO packet. -/
  | hello (h : PktHdr) (w0 w1 w2 w3 : Native)
  /-- EPOCH_PROPOSE: An EPOCH_PROPOSE packet. -/
  | epochPropose (h : PktHdr) (e : Byte) (nonce : Word)
  /-- EPOCH_ACK: An EPOCH_ACK packet. -/
  | epochAck (h : PktHdr) (e : Byte) (nonce : Word) (refuse : Bool)
  /-- EPOCH_GO: An EPOCH_GO packet. -/
  | epochGo (h : PktHdr) (e : Byte) (nonce : Word) (s : Time)
  /-- GO_ACK: A GO_ACK packet. -/
  | goAck (h : PktHdr) (e : Byte) (nonce : Word)
  /-- EPOCH_SWITCH: The switch instant S. -/
  | epochSwitch
  /-- EPOCH_DROP: An EPOCH_DROP packet. -/
  | epochDrop (h : PktHdr) (e : Byte)
  /-- DELTA: A DELTA packet. -/
  | delta (h : PktHdr) (index : BitVec 16) (poison : BitVec 64) (words : List Native)
  /-- DELTA_ACK_TIMEOUT: A DELTA unacknowledged within 2T. -/
  | deltaAckTimeout
  /-- SWEEP: A SWEEP packet. -/
  | sweep (h : PktHdr) (sel : BitVec 2) (at_ : Time)
  /-- JOURNAL: A JOURNAL packet. -/
  | journal (h : PktHdr) (entries : List Native)
  /-- SYNC_OPEN: A SYNC_OPEN packet. -/
  | syncOpen (h : PktHdr) (kind : BitVec 4) (bytes : BitVec 64)
  /-- SYNC_GRANT: A SYNC_GRANT packet. -/
  | syncGrant (h : PktHdr)
  /-- SYNC_DATA: A SYNC_DATA packet. -/
  | syncData (h : PktHdr) (index : BitVec 16) (words : List Native)
  /-- SYNC_END: A SYNC_END packet. -/
  | syncEnd (h : PktHdr) (sha : BitVec 256)
  /-- SYNC_REFUSE: A SYNC_REFUSE packet. -/
  | syncRefuse (h : PktHdr)
  /-- SYNC_TIMEOUT: 10 ms without a packet of the session. -/
  | syncTimeout
  /-- RESET_NOTICE: A RESET_NOTICE packet. -/
  | resetNotice (h : PktHdr) (level : BitVec 2)
  /-- RESET_REQ: A RESET_REQ packet. -/
  | resetReq (h : PktHdr) (level : BitVec 2)
  /-- MIRL_PACKET_TRANSMIT: The previous transmission ends. -/
  | mirlPacketTransmit
  /-- MIRL_CRC_ERROR: A packet with bad framing, CRC-32C or a code violation. -/
  | mirlCrcError
  /-- SUPPLY_IN_WINDOW: A rail returns inside its window. -/
  | supplyInWindow (r : Rail)
  /-- JUNCTION_TEMPERATURE_RECOVERED: The junction is at 125 degrees or below again. -/
  | junctionTemperatureRecovered
  /-- PLL_RELOCK: A PLL regains lock. -/
  | pllRelock (p : Pll)
  /-- BLOCK_OFF: A requester's block enters OFF. -/
  | blockOff (r : Fin 29)
deriving DecidableEq, Repr

end Sys2Proof
end

