-- ==== Sys2Proof/Decode.lean ====
section
/-!
DEFINITION. Decoding of the table's words: no row of spec/opcode_table.json gives bits, so no word spells a command (log 2).
-/
namespace Sys2Proof

/-- The command a word spells by the table's bits: the table gives none. -/
def decodeTableWord (_nbits _w : Nat) : Option Instr := none

end Sys2Proof
end

