-- ==== Sys2Proof/Machine/State.lean ====
section
/-!
DEFINITION. The state of the ZS-7716 as plain data, and State.reset: the device right after a power-on reset (POR), with the
always-on logic released (step 1 of Table 11-3) and the option phase about to run. Each field's comment names the rule that
gives the state and its reset value; "choice" marks a value the spec does not give (log 4).
-/
namespace Sys2Proof.Machine

/-! ## Fixed sets of names -/

/-- Reaction classes (09, Table 09-6). -/
inductive Klass where
  | c0 | c1 | c2 | c3 | c4 | c5 | c6
deriving DecidableEq, Repr

/-- Governor states (09, Table 09-1). -/
inductive GovState where
  | disarmed | armed | permitted | fermata
deriving DecidableEq, Repr

/-- Seasons (10, Table 10-3). -/
inductive Season where
  | winter | spring | summer | autumn
deriving DecidableEq, Repr

/-- Link states of a trunk engine (03, Table 03-11 LINK_STATE). -/
inductive LinkState where
  | down | train | discover | up | tacet
deriving DecidableEq, Repr

/-- Block power states (10, Table 10-2). -/
inductive PowerState where
  | off | retain | idle | run
deriving DecidableEq, Repr

/-- Reset levels (11, Table 11-1). -/
inductive Level where
  | l0 | l1 | l2 | l3 | l4
deriving DecidableEq, Repr

/-- PAIR_STATE of MIRL_STATUS (13, Table 13-5). -/
inductive PairState where
  | down | handshake | paired | observer | solo | conflict
deriving DecidableEq, Repr

/-- Roles of the OPTR code (11, R274). -/
inductive Role where
  | solo | a | b
deriving DecidableEq, Repr

/-- Modes of a Chord slice (08, Table 08-6). -/
inductive SliceMode where
  | checked | mirrorOnly | vectorOnly
deriving DecidableEq, Repr

/-- Cache states of a line; a line in I is not listed (08, "Cache states"). -/
inductive CState where
  | s | e | m | isD | imD | smD | miA | ciA | iiA
deriving DecidableEq, Repr

/-- Probes of a home (08, Table 08-1). -/
inductive ProbeKind where
  | share | take | kill | evict
deriving DecidableEq, Repr

/-- Requests to a home (08, Table 08-1). -/
inductive AskKind where
  | share | own | upgrade | peek | put | retireDirty | retireClean
deriving DecidableEq, Repr

/-- Widths and extensions of the scalar loads (06, Table 06-3). -/
inductive LoadKind where
  | lb | lh | lw | lbu | lhu
deriving DecidableEq, Repr

/-- The atomics (06, R148). -/
inductive AtomicOp where
  | swp | add | and | or | xor | cas
deriving DecidableEq, Repr

/-- Precedence classes of queued command words (02, R25). -/
inductive TxClass where
  | urgent | protective | other
deriving DecidableEq, Repr

/-! ## Memories (04) -/

/-- A stored native word: its data and the syndrome it would give when read at its own address, that is the stored check bits
XOR the computed ones (R90, R91): 0 clean, 0x1FF poisoned. -/
structure Cell where
  data : Native
  syn : BitVec 9
deriving DecidableEq, Repr

/-- An addressed memory: its words by index, rising, without an entry equal to what an unlisted word reads as. -/
structure Ram where
  cells : List (Nat × Cell)
deriving DecidableEq, Repr

/-- The addressed memories of Table 04-1. -/
structure Mems where
  /-- ITCM of VOICE_0 to VOICE_3 and of the Steward (R75). Reset: zero-filled (R282). -/
  itcm : Vector Ram 5
  /-- DTCM of VOICE_0 to VOICE_3 and of the Steward (R75). Reset: zero-filled (R282). -/
  dtcm : Vector Ram 5
  /-- The Chord data arrays of the four slices, by native word of the 8 MiB window (R75, R177). Reset: zero-filled (R282). -/
  chord : Ram
  /-- Score frame 0 and frame 1, one record per channel (R79). Reset: zero-filled (R282). -/
  score : Vector Ram 2
  /-- The frame-open fill of the buffer is done: an unlisted slot holds the poisoned MISSING word (R57). Reset: false. -/
  scoreFilled : Vector Bool 2
  /-- Verdict, four channels to a word (R80). Reset: zero-filled (R282). -/
  verdict : Ram
  /-- The xSPI flash's two image slots, as bytes from their first byte (R285). Reset: erased (choice: board content). -/
  flashA : List Byte
  flashB : List Byte
deriving DecidableEq, Repr

/-- A log entry waiting to be popped, with the log's LOST bit (04, Tables 04-8, 04-11; 03 URG_LOG; 08 LOST_LOG). -/
structure PopLog where
  entries : List Native
  lost : Bool
deriving DecidableEq, Repr

/-- MEMC (04, Table 04-11). -/
structure Memc where
  /-- An injection is armed (INJ_GO). Reset 0. -/
  injGo : Bool
  /-- INJ_KIND [3:1]. Reset 0. -/
  injKind : BitVec 3
  /-- INJ_ADDR [31:4]. Reset 0. -/
  injAddr : BitVec 28
  /-- INJ_BIT BIT [6:0]. Reset 0. -/
  injBit : BitVec 7
  /-- INJ_BIT ABIT [20:16]. Reset 0. -/
  injAbit : BitVec 5
  /-- CE_CNT, UE_CNT, ADDR_CNT, POISON_RD_CNT, FABRIC_CE_CNT, FABRIC_UE_CNT, at 0x0030 to 0x0044. Reset 0. -/
  cnt : Vector Word 6
  /-- CE_LOG, 8 entries, and its LOST bit (R102). Reset: empty. -/
  ceLog : PopLog
  /-- UE_LOG, 8 entries, and its LOST bit (R102). Reset: empty. -/
  ueLog : PopLog
deriving DecidableEq, Repr

/-- Ostinato (04, R98 to R101, Table 04-10). -/
structure Osti where
  /-- OSTI_CTRL ENABLE. Reset 1. -/
  enable : Bool
  /-- OSTI_PACE [9:0]. Reset 125. -/
  pace : BitVec 10
  /-- OSTI_PASS_LIMIT [7:0]. Reset 8. -/
  passLimit : Byte
  /-- OSTI_STATUS REGION: the current region, 0 to 16,079. Reset 0. -/
  region : BitVec 14
  /-- The save buffer's 64 words while a region is saved: OSTI_STATUS ACTIVE is "some" (R98). Reset: none. -/
  save : Option (Vector Cell 64)
  /-- OSTI_WHERE ADDR and MEM. Reset 0. -/
  whereAddr : BitVec 24
  whereMem : Byte
  /-- OSTI_LAST_PASS in ms. Reset 0. -/
  lastPass : Word
  /-- OSTI_PASS_CNT, OSTI_FAIL_CNT, OSTI_ABORT_CNT, OSTI_SKIP_CNT. Reset 0. -/
  cnt : Vector Word 4
  /-- LINE_TIME at which the running pass began (R100, R101). Reset 0. -/
  passStart : Time
  /-- LINE_TIME of the last region start (R100). Reset 0. -/
  startAt : Time
  /-- The region in progress is abandoned and retested at the next grant (R100). Reset: false. -/
  retest : Bool
deriving DecidableEq, Repr

/-! ## Common block header (01) -/

/-- The common header of a block (01, Table 01-2), less CNT_OVF's OR and SYNC_BUSY, which are computed. -/
structure Hdr where
  /-- BLK_STATUS HWLOST. Reset 0. -/
  hwlost : Bool
  /-- BLK_STATUS RSVD_ACC. Reset 0. -/
  rsvdAcc : Bool
  /-- TABLE_SYNC SYNC, with which SYNC_BUSY is set (R14, R19). Reset 0. -/
  sync : Bool
  /-- A second synchronization is held (R14). Reset 0. -/
  syncHeld : Bool
  /-- HWLOST_SRC OFFSET. Reset 0. -/
  hwlostSrc : BitVec 16
  /-- CNT_OVF. Reset 0. -/
  cntOvf : Word
deriving DecidableEq, Repr

/-- A snapshot of a counter's high half held for an initiator (01, R8). -/
structure Snap where
  init : Initiator
  blk : BlkId
  /-- Offset of the counter's low half. -/
  off : Nat
  hi : Word
deriving DecidableEq, Repr

/-! ## Chord (08) -/

/-- What an access of a core does in Chord; `commits`: the store's instruction waits with it (a store that left the egress hold
has committed). -/
inductive CacheOp where
  | load (k : LoadKind) (rd : RegF)
  | lane (vd : RegF)
  | store (bytes : Nat) (data : Native) (poison : Bool) (commits : Bool)
  | atomic (op : AtomicOp) (rd : RegF) (src : Word) (srcTag : Bool) (cmp : Word) (cmpTag : Bool)
deriving DecidableEq, Repr

/-- An access that waits in a cache for a line (08, Table 08-2; R184): where it begins, how many bytes it has performed on lines
it held, and what it has read there. -/
structure CacheWait where
  op : CacheOp
  addr : Word
  done : Nat
  acc : Native
  accTag : Bool
deriving DecidableEq, Repr

/-- A line an L1D holds or awaits (08, Tables 08-2, 08-3). -/
structure L1Line where
  line : Line
  way : BitVec 2
  st : CState
  /-- The four stored words, under the word code (R94, R106, R180). -/
  words : Vector Cell 4
  /-- The tag word reads uncorrectable (R195). -/
  tagBad : Bool
  /-- The access waiting for the grant. -/
  wait : Option CacheWait
  /-- A probe deferred until the grant (R184). -/
  deferred : Option ProbeKind
deriving DecidableEq, Repr

/-- A request in a home's tracker (08, R181, R185). -/
structure Txn where
  kind : AskKind
  agent : Agent
  line : Line
  way : BitVec 2
  /-- The transaction has started: the requests of the line ahead of it have completed. -/
  active : Bool
  /-- Caches whose probe answer is awaited (PROBING). -/
  awaiting : BitVec 5
  /-- The CarryPut of RetireDirty or AskPut, once it has arrived (AWAIT_DATA until then): data, poison, mask. -/
  put : Option (BitVec 512 × BitVec 4 × BitVec 4)
  /-- A directory eviction this request waits for (EVICTING): the victim line, and the caches awaited. -/
  evict : Option (Line × BitVec 5)
  /-- Replays so far (R193). -/
  replays : Nat
  /-- The requester was a sharer when the transaction started, so the answer is NODATA (R185). -/
  nodata : Bool
deriving DecidableEq, Repr

/-- An entry of the Tag Mirror (08, R188). -/
structure TmEntry where
  agent : Cl
  line : Line
  way : BitVec 2
  /-- State X; S otherwise. -/
  x : Bool
  /-- The entry has moved to the victim shadow. -/
  shadow : Bool
  /-- The syndrome its tracker word reads with (R190). -/
  syn : BitVec 9
deriving DecidableEq, Repr

/-- An entry of the Vector Directory (08, R189). -/
structure VdEntry where
  line : Line
  /-- The way of the set that holds it. -/
  way : BitVec 3
  vec : Byte
  x : Bool
  transient : Bool
  /-- The syndrome its tracker word reads with (R190). -/
  syn : BitVec 9
deriving DecidableEq, Repr

/-- One Chord slice's home (08, R185 to R193, Table 08-8). -/
structure Slice where
  /-- SLICE_CTRL MODE_REQ. Reset 0. -/
  modeReq : BitVec 2
  /-- SLICE_CTRL QUIESCE. Reset 0. -/
  quiesce : Bool
  /-- SLICE_CTRL SLICE_FLUSH. Reset 0. -/
  flushing : Bool
  /-- A second SLICE_FLUSH held until the running one ends (R14). Reset: false. -/
  flushHeld : Bool
  /-- SLICE_STATUS MODE. Reset: CHECKED. -/
  mode : SliceMode
  /-- The mode the slice switches to once its active transactions complete (R191, R192). Reset: none. -/
  switchTo : Option SliceMode
  /-- The retirement record of the Tag Mirror and of the Vector Directory, in the always-on domain (R191). Reset 0. -/
  tmFailed : Bool
  vdFailed : Bool
  /-- Tracker entries, oldest first, at most 32 (R167). Reset: none. -/
  txns : List Txn
  /-- The Tag Mirror (R188). Reset: empty. -/
  tm : List TmEntry
  /-- The Vector Directory (R189). Reset: empty. -/
  vd : List VdEntry
  /-- The tree pseudo-LRU bits of each set of the Vector Directory (R189). Reset 0 (choice). -/
  plru : Vector (BitVec 7) 64
  /-- Lines that a flush is taking back, with the caches whose answer is awaited (R197, R198). Reset: none. -/
  flushed : List (Line × BitVec 5)
  /-- Aged requests that hold a reservation in their directory set (R193). Reset: none. -/
  reserved : List (Agent × Line)
  /-- Data of RetireDirty or AskPut that has arrived before its request: agent, line, data, poison, mask (R178). Reset: none. -/
  early : List (Agent × Line × BitVec 512 × BitVec 4 × BitVec 4)
deriving DecidableEq, Repr

/-- A coherence message in flight (08, Table 08-1). -/
inductive CohMsg where
  | ask (k : AskKind) (a : Agent) (line : Line) (way : BitVec 2)
  | probe (k : ProbeKind) (a : Cl) (line : Line)
  | ackGone (a : Cl) (line : Line) (lost : Bool)
  | ackKept (a : Cl) (line : Line)
  | ackDone (a : Agent) (line : Line)
  | ackStale (a : Cl) (line : Line)
  | carryGrant (a : Agent) (line : Line) (data : BitVec 512) (poison : BitVec 4) (excl nodata : Bool)
  | carryDirty (a : Cl) (line : Line) (data : BitVec 512) (poison : BitVec 4) (shared : Bool)
  | carryPut (a : Agent) (line : Line) (data : BitVec 512) (poison : BitVec 4) (mask : BitVec 4)
deriving DecidableEq, Repr

/-- Chord: its homes, the five L1Ds, the messages in flight and the CHORD block (08). -/
structure Chord where
  /-- The four slices. -/
  slice : Vector Slice 4
  /-- The L1D of VOICE_0 to VOICE_3 and the Steward: lines not in I (R182, R183). Reset: all in I (R282). -/
  l1d : Vector (List L1Line) 5
  /-- Messages in flight, in the order sent (R178, R179). Reset: none. -/
  net : List CohMsg
  /-- CHORD_CTRL FLUSH and FLUSH_MASK. Reset 0. -/
  flush : Bool
  flushMask : BitVec 5
  /-- The mask the running flush uses, and a second FLUSH held until it ends (R14). Reset: 0, false. -/
  flushUse : BitVec 5
  flushHeld : Bool
  /-- CHORD_EVENT: TRACK, DEGRADE, SLICE, PROTO, STRAY, LOST, RESET_REFUSED, RECLAIM_DONE. Reset 0. -/
  event : Byte
  /-- CHORD_IRQ_EN. Reset 0. -/
  irqEn : Byte
  /-- CHORD_STATUS DEAD: declared dead since the agent's last L3 reset. Reset 0. -/
  dead : BitVec 5
  /-- Agents for which the isolation wrapper acts on the coherence channels (R195). Reset 0. -/
  wrapped : BitVec 5
  /-- Agents whose reclaim walk runs: CHORD_STATUS RECLAIMING is "not zero" (R196). Reset 0. -/
  reclaiming : BitVec 5
  /-- RETRY_CNT, AGED_CNT, EVICT_CNT, STALE_CNT, LOST_CNT, STRAY_CNT. Reset 0. -/
  cnt : Vector Word 6
  /-- LOST_LOG, 16 entries, and its LOST bit. Reset: empty. -/
  lostLog : PopLog
deriving DecidableEq, Repr

/-! ## Cores (06) -/

/-- A Cue slot (06, CUE_SLOT_k). -/
structure CueSlot where
  entry : BitVec 16
  prio : BitVec 3
  bind : BitVec 3
  armed : Bool
deriving DecidableEq, Repr

/-- A lane result not yet written (06, R136): `left` issued instructions remain before every reader sees it. -/
structure LanePend where
  reg : Fin 16
  val : Native
  tag : Bool
  left : Nat
deriving DecidableEq, Repr

/-- A transaction of the Voice egress hold (05, R109; 07, R163). -/
inductive EgressOp where
  | store (addr : Word) (size : Size) (data : Native) (poison : Bool)
  | cpush (word : Native) (range : BitVec 6)
  /-- A register-space read; the core waits for it. -/
  | read (addr : Word) (size : Size) (op : CacheOp)
  | fdone (range : BitVec 6)
deriving DecidableEq, Repr

/-- A position of the egress hold in use. -/
structure Egress where
  op : EgressOp
  /-- It has left the hold and awaits its acknowledgement (R163). -/
  released : Bool
  /-- It completed with an error at its target (R85, STORE_LATE). -/
  error : Bool
deriving DecidableEq, Repr

/-- One cluster's core, as its checked or voted cores agree on it (05, R105, R114; 06, R128, Table 06-1). -/
structure Core where
  /-- g0 to g31. Reset 0 (R128). -/
  g : Vector Word 32
  /-- PTAG_G: the poison tag of gk at bit k. Reset 0 (R128). -/
  gTag : Word
  /-- v0 to v15. Reset 0 (R128). -/
  v : Vector Native 16
  /-- PTAG_V: the poison tag of vk at bit k. Reset 0 (R128). -/
  vTag : BitVec 16
  /-- Lane results still in their producer's shadow (R136). Reset: none. -/
  lane : List LanePend
  /-- PC. Reset 0x0700_0000 (R128). -/
  pc : Word
  /-- STATUS CURLVL. Reset 0. -/
  curLvl : BitVec 5
  /-- STATUS IE. Reset 0. -/
  ie : Bool
  /-- STATUS MASKLVL. Reset 0. -/
  maskLvl : BitVec 5
  /-- STATUS INLOOP. Reset 0. -/
  inLoop : Bool
  /-- EPC. Reset 0. -/
  epc : Word
  /-- ECAUSE CODE, DETAIL. Reset 0. -/
  ecause : BitVec 16
  /-- EADDR. Reset 0. -/
  eaddr : Word
  /-- VTABLE [31:9]. Reset 0. -/
  vtable : BitVec 23
  /-- LOOP_START. Reset 0. -/
  loopStart : BitVec 16
  /-- LOOP_END. Reset 0. -/
  loopEnd : BitVec 16
  /-- LOOP_COUNT. Reset 0. -/
  loopCount : Word
  /-- The loop buffer holds the body (R143, R144). Reset: false. -/
  loopBuf : Bool
  /-- The running iteration was entered by a return into the body: the buffer is filled in the next one (R144). Reset: false. -/
  loopPart : Bool
  /-- CYCLE_LO and CYCLE_HI. Reset 0. -/
  cycle : BitVec 64
  /-- The snapshot of CYCLE_HI that a read of CYCLE_LO holds. Reset: none. -/
  cycleSnap : Option Word
  /-- FRAME: number of the sealed frame being judged. Reset 0. -/
  frame : BitVec 16
  /-- POISON_JUDGED. Reset 0. -/
  poisonJudged : Word
  /-- DIV_ABANDON. Reset 0. -/
  divAbandon : Word
  /-- WDOG_LIMIT US, live and staged (commit table, R208). Reset 2,000. -/
  wdogLimit : BitVec 16
  wdogStaged : BitVec 16
  /-- LINE_TIME of the last watchdog reload; while the watchdog pauses, the time it has counted (R153). Reset 0. -/
  wdogAt : Time
  /-- ICU_EN_0, ICU_EN_1. Reset 0. -/
  icuEn : BitVec 64
  /-- ICU_PEND_0, ICU_PEND_1. Reset 0. -/
  icuPend : BitVec 64
  /-- ICU_LVL_k: level - 1, 4 bits a source. Reset 0. -/
  icuLvl : Vector Word 8
  /-- CUE_READY. Reset 0. -/
  cueReady : Word
  /-- CUE_SLOT_k. Reset 0. -/
  cueSlot : Vector CueSlot 32
  /-- CUE_CANCEL_WON. Reset 0. -/
  cueCancelWon : Word
  /-- CUE_MERGE. Reset 0. -/
  cueMerge : Word
  /-- The core is in WAIT (R160). Reset: false. -/
  waiting : Bool
  /-- A FENCE or IFLUSH waits for its drain (R145, R149, R154). Reset: false. -/
  draining : Bool
  /-- A load, lane access or atomic waits for a Chord line (R137, R182). Reset: false. -/
  blocked : Bool
  /-- A double fault has stopped the core (R153). Reset: false. -/
  doubleFault : Bool
  /-- Address of a committed store that completed with an error, oldest first (STORE_LATE). Reset: none. -/
  late : List Word
  /-- The egress hold, oldest first, at most four (R163). Reset: empty. -/
  egress : List Egress
  /-- The core is held in reset (R128, R264; Voices until their image is sealed, Table 11-3). Reset: true. -/
  inReset : Bool
deriving DecidableEq, Repr

/-! ## Unison, ownership and plans (05) -/

/-- OUT_INFO_n and OUT_TIME_n (05, Table 05-7). -/
structure OutInfo where
  cause : BitVec 3
  comp : BitVec 2
  frame : BitVec 16
  segment : BitVec 5
  count : BitVec 2
  time : Time
deriving DecidableEq, Repr

/-- UNIS (05, Table 05-7) and what its rules keep. -/
structure Unis where
  /-- UNIS_CTRL REJOIN. Reset 0. -/
  rejoin : Bool
  /-- The Voice that the pending REJOIN readmits, and a second REJOIN held until then (R14). Reset: 0, none. -/
  rejoinOf : Vc
  rejoinHeld : Option Vc
  /-- UNIS_CTRL REJOIN_V. Reset 0. -/
  rejoinV : Vc
  /-- UNIS_CTRL OUT_V. Reset 0. -/
  outV : Vc
  /-- UNIS_STATUS ALIVE: set at commit. Reset 0. -/
  alive : BitVec 4
  /-- Clusters in TACET behind their wrapper (R110; the Steward only after a C2 reaction). Reset 0. -/
  tacet : BitVec 5
  /-- Voices that BIST found not live (R277, R279). Reset 0. -/
  notLive : BitVec 4
  /-- Voices that have been reset at L3 since they went out, and those whose full probe has passed (R126). Reset 0. -/
  outReset : BitVec 4
  outProbed : BitVec 4
  /-- UNA and UNB of each Voice, as the last cycle of UNISON_MISMATCH showed them (R107, R112). Reset: without fault. -/
  una : Vector Comparator 4
  unb : Vector Comparator 4
  /-- Voices whose return host software has requested (R126). Reset 0. -/
  returnReq : BitVec 4
  /-- UNIS_STATUS STW_MASKED. Reset 0. -/
  stwMasked : BitVec 3
  /-- LINE_TIME of the masking that awaits its resynchronization (R115). Reset 0. -/
  stwMaskedAt : Time
  /-- How often each Steward core has been masked since the last L0 or L1 (R116). Reset 0. -/
  stwMaskNum : Vector Nat 3
  /-- UNIS_STATUS STW_DEGRADED. Reset 0. -/
  stwDegraded : Bool
  /-- LINE_TIME of the Steward L3 that has not yet returned (R117). Reset: none. -/
  stwAway : Option Time
  /-- UNIS_STATUS PROBE_IDX. Reset 0. -/
  probeIdx : BitVec 10
  /-- UNIS_EVENT, bits 0 to 11. Reset 0. -/
  event : BitVec 12
  /-- UNIS_IRQ_EN. Reset 0. -/
  irqEn : BitVec 12
  /-- CHMAP_BASE [31:10]. Reset 0. -/
  chmapBase : BitVec 22
  /-- CHMAP_CRC. Reset 0. -/
  chmapCrc : Word
  /-- The channel map in force, 64 entries (R118, R120). Reset: all zero, that is no valid range (choice). -/
  chmap : Vector Native 64
  /-- The last reload found a map that differs from CHMAP_CRC: the old geometry stays in force (R120). Reset: false. -/
  mapHeld : Bool
  /-- PLAN_STATE MASK, SWEEP, SHED. Reset 0. -/
  planMask : BitVec 4
  planSweep : BitVec 2
  planShed : BitVec 16
  /-- The live mask has changed and its plan is not yet applied (R121). Reset: false. -/
  planPending : Bool
  /-- A plan has been applied to a live mask, at a commit or later. Reset: false. -/
  committed : Bool
  /-- OUT_INFO_n and OUT_TIME_n. Reset 0. -/
  out : Vector OutInfo 4
  /-- REHOME_n. Reset 0. -/
  rehome : Vector (BitVec 64) 4
  /-- Ranges whose REHOME bits an L2 has set and the deadline clears (R263). Reset 0. -/
  rehomeL2 : BitVec 64
  /-- Ranges that the last applied plan has moved, for the VOICE_OUT event (Table 05-6). Reset 0. -/
  movedRanges : BitVec 64
  /-- PROBE_CNT, STW_MASK_CNT, REHOME_CNT, REJOIN_REFUSED_CNT. Reset 0. -/
  cnt : Vector Word 4
  /-- OWNER. Reset 0. -/
  owner : BitVec 128
  /-- PLAN_m, live and staged (commit table, R121). Reset 0. -/
  plan : Vector Plan 16
  planStaged : Vector Plan 16
deriving DecidableEq, Repr

/-! ## Trunk engines (03) -/

/-- A set or word that left on a downlink (03, Table 03-1; R25). -/
inductive DownSet where
  | idle
  | fm (frame : BitVec 16) (sweep : BitVec 2)
  | hb (frame : BitVec 16) (ltime : BitVec 48) (epoch : Byte) (hbf : Byte)
  | nak (conc : BitVec 5) (bseq : Byte) (frame : Byte) (reason : Byte)
  | disc (index : Byte)
  | cmd (word : Native)
deriving DecidableEq, Repr

/-- A command word queued for a trunk: the word without SEQ and CRC, its precedence, the cluster whose staging entry it
occupies, none for a hardware word, and the range released with it (R211). -/
structure TxWord where
  word : Native
  cls : TxClass
  owner : Option Cl
  range : Option (BitVec 6)
deriving DecidableEq, Repr

/-- A command sent and not yet acknowledged (03, R67, R68). -/
structure Unacked where
  word : Native
  cls : TxClass
  /-- Retransmissions so far. -/
  retries : Nat
  /-- It is queued again for retransmission. -/
  resend : Bool
  /-- Concentrators that have acknowledged a broadcast word. -/
  acked : Word
deriving DecidableEq, Repr

/-- What the engine keeps for one concentrator (03, R55, R58, R65, R67, R68). -/
structure ConcState where
  /-- Next expected BSEQ of the open frame. -/
  nextBseq : Byte
  /-- A burst with LAST has been received in the open frame. -/
  lastSeen : Bool
  /-- NAKs sent in the open frame, by BSEQ. -/
  naks : List (Byte × Nat)
  /-- A hardware ZONE_OFF has been coalesced in the open frame (R62). -/
  coalesced : Bool
  /-- The next command sequence. -/
  nextSeq : Byte
  /-- Unacknowledged unicast words in sequence order. -/
  win : List Unacked
deriving DecidableEq, Repr

/-- The burst being received (03, Tables 03-3, 03-4). -/
structure Burst where
  hdr : BitVec 64
  /-- Records received so far. -/
  pos : Nat
  /-- CRC-32C register over header bytes 0 to 9 and the records so far (R52). -/
  crc : Word
  viol : Bool
deriving DecidableEq, Repr

/-- A trunk engine TRK_n (03, Table 03-11) and what its rules keep. -/
structure Trunk where
  /-- TRK_CTRL ENABLE. Reset 0. -/
  enable : Bool
  /-- TRK_CTRL LOOPBACK. Reset 0. -/
  loopback : Bool
  /-- TRK_CFG CONC_EXPECT. Reset 0. -/
  concExpect : BitVec 6
  /-- TRK_CFG RETRY_RES. Reset 0x32. -/
  retryRes : Byte
  /-- TRK_CFG MAX_NAK. Reset 0b11. -/
  maxNak : BitVec 2
  /-- TRK_STATUS LINK_STATE. Reset: DOWN. -/
  link : LinkState
  /-- The uplink has lost lock and relocks (Table 03-10). Reset: false. -/
  relocking : Bool
  /-- Bring-up has failed since ENABLE or RELINK (R237, Table 10-3). Reset: false. -/
  failed : Bool
  /-- TRK_CTRL RELINK: set until the bring-up it reruns ends; and a second one held until then (R13, R14). Reset 0. -/
  relink : Bool
  relinkHeld : Bool
  /-- DISC sets sent in this discovery (R49). Reset 0. -/
  discs : Nat
  /-- TRK_STATUS CONC_FOUND. Reset 0. -/
  concFound : BitVec 6
  /-- VETO held by a zone trip or a lost link: TRK_STATUS VETO_TX outside FERMATA (R69, Table 03-10). Reset: false. -/
  veto : Bool
  /-- TRK_EVENT, bits 0 to 9. Reset 0. -/
  event : BitVec 10
  /-- TRK_IRQ_EN. Reset 0. -/
  irqEn : BitVec 10
  /-- ROUTE_BASE [31:9]. Reset 0. -/
  routeBase : BitVec 23
  /-- The route cache: the copies of the 32 route entries, none where discarded (R19, R20, R71). Reset: none. -/
  route : Vector (Option Native) 32
  /-- CONC_LOST_MAP. Reset 0. -/
  concLost : Word
  /-- RX_REC and TX_CMD. Reset 0. -/
  rxRec : BitVec 64
  txCmd : BitVec 64
  /-- The 14 counters from 0x0060 (CODE_ERR ... COALESCE_CNT). Reset 0. -/
  cnt : Vector Word 14
  /-- MISSING words of the last sealed frame (Table 12-8). Reset 0. -/
  missLast : BitVec 17
  /-- SENT_VMAX_k, SENT_VMIN_k, SENT_TMAX_k, live and staged (commit table, R63). Reset 0. -/
  sentVmax : Vector (BitVec 20) 16
  sentVmin : Vector (BitVec 20) 16
  sentTmax : Vector (BitVec 12) 16
  sentVmaxS : Vector (BitVec 20) 16
  sentVminS : Vector (BitVec 20) 16
  sentTmaxS : Vector (BitVec 12) 16
  /-- URG_LOG, 16 entries, and its LOST bit. Reset: empty. -/
  urgLog : PopLog
  /-- Slots written in the open frame, with their SEQ, by concentrator and slot (R55). Reset: none. -/
  written : List (BitVec 13 × Byte)
  /-- What the engine keeps for each concentrator. Reset: sequence 1 next (choice), nothing outstanding. -/
  conc : Vector ConcState 32
  /-- The next broadcast sequence and the unacknowledged broadcast words, at most 8 (R67). Reset: 1 (choice), none. -/
  nextSeqB : Byte
  winB : List Unacked
  /-- The burst being received. Reset: none. -/
  burst : Option Burst
  /-- Link control sets waiting for the downlink (R45). Reset: none. -/
  linkq : List DownSet
  /-- Command words waiting, in release order (R25, R62). Reset: none. -/
  txq : List TxWord
  /-- What the downlink sent in the last step that sent anything, in order (model's own output record). Reset: none. -/
  out : List DownSet
deriving DecidableEq, Repr

/-! ## Governor (09) -/

/-- A word in the Governor's staging area that waits for its range's FDONE (09, R211). -/
structure Staged where
  range : BitVec 6
  word : Native
deriving DecidableEq, Repr

/-- The Governor GOV (09, Table 09-9) and what its rules keep. -/
structure Gov where
  /-- GOV_STATE STATE. Reset: DISARMED (R201). -/
  state : GovState
  /-- GOV_STATE EPOCH. Reset 0. -/
  epoch : Byte
  /-- The epoch that heartbeats carry and words are stamped with, from the next heartbeat instant on (R207). Reset 0. -/
  epochHb : Byte
  /-- GOV_STATE COMMIT_WIN. Reset 0. -/
  commitWin : Bool
  /-- The accepted permit stage: its LINE_TIME and nonce (R206). GOV_STATE STAGED is "some". Reset: none. -/
  stage : Option (Time × Word)
  /-- PERMIT_NONCE. Reset 0. -/
  nonce : Word
  /-- PERMIT_ECHO. Reset 0. -/
  echo : Word
  /-- GOV_RESULT CODE. Reset 0. -/
  result : BitVec 4
  /-- ENABLE_RATE, live and staged (commit table). Reset 256. -/
  rate : BitVec 11
  rateStaged : BitVec 11
  /-- RIDE_FRAMES, live and staged (commit table). Reset 0. -/
  rideFrames : BitVec 2
  rideFramesS : BitVec 2
  /-- CLAMP_CRC_EXP. Reset 0. -/
  clampCrcExp : Word
  /-- CLAMP_k: the live stored words with their syndrome, the staged entries, FAILED_k, and the committed CRC (R208, R210).
  Reset 0; the committed CRC is that of the zero table (choice). -/
  clamp : Vector Cell 16
  clampStaged : Vector Native 16
  clampFailed : BitVec 16
  clampCrc : Word
  /-- A live commit table is held: false after an L4 of the Governor, until a commit (R265). Reset: true (choice). -/
  hasCommit : Bool
  /-- ZONE_TRIP latches. Reset 0. -/
  zoneTrip : BitVec 16
  /-- Trunks that have passed bring-up since their trip, and trunks a C4 source of which has reported since the stage (R222).
  Reset 0. -/
  trainedSince : BitVec 16
  c4Since : BitVec 16
  /-- GOV_EVENT: FERMATA, ZONE_TRIP, BLOCKED, CLASS_FAILED. Reset 0. -/
  event : BitVec 4
  /-- GOV_IRQ_EN. Reset 0. -/
  irqEn : BitVec 4
  /-- REL_CMD. Reset 0. -/
  relCmd : BitVec 64
  /-- The counters from 0x0060 to 0x0088 (BLK_POISON ... COMMIT_WR_IGN). Reset 0. -/
  cnt : Vector Word 11
  /-- LAST_BLOCKED. Reset 0. -/
  lastBlocked : Native
  /-- The staging area of each cluster, in push order (R211). Reset: empty. -/
  staged : Vector (List Staged) 5
  /-- Words pushed for each range in the frame (check 4 of Table 09-3). Reset 0. -/
  pushed : Vector Nat 64
  /-- Ranges whose fallback is triggered (R214). Reset 0. -/
  fallback : BitVec 64
  /-- Tokens of the ENERGIZE bucket (R216). Reset 0 (choice). -/
  tokens : Nat
  /-- RIDE_STATUS RIDING and UNJUDGED (R267). Reset 0. -/
  riding : Bool
  unjudged : BitVec 2
  /-- The peer has dropped the pair epoch: ENERGIZE and SET_POINT are blocked (R337). Reset: false. -/
  pairBlocked : Bool
  /-- Two consecutive read-back samples differ: samples so far, and checks left out after a commanded change (R220). -/
  rbBad : Nat
  rbSkip : Nat
  /-- The levels TRIPA and TRIPB are driven with: they toggle (R218). Reset: stopped (Table 11-5, L0). -/
  tripOn : Bool
  /-- The levels ZONE_0 to ZONE_15 are driven to (R219). Reset: low. -/
  zone : BitVec 16
deriving DecidableEq, Repr

/-! ## Fault Hub (09) -/

/-- A report on its way to the Fault Hub (09, R223). -/
structure Report where
  src : FaultSource
  inst : BitVec 4
  detail : Word
deriving DecidableEq, Repr

/-- FHUB (09, Table 09-10). -/
structure Fhub where
  /-- FH_CTRL INJ_SRC. Reset 0. -/
  injSrc : BitVec 6
  /-- FH_ESC ESC_N and ESC_WIN, live and staged (commit table). Reset 3 and 1,000. -/
  escN : BitVec 4
  escNS : BitVec 4
  escWin : BitVec 16
  escWinS : BitVec 16
  /-- FH_STATUS HEAD: index of the next entry. Reset 0. -/
  head : BitVec 6
  /-- FH_LOG_i. Reset 0. -/
  log : Vector Native 64
  /-- The log entries held, oldest first, by index (R228). Reset: none. -/
  order : List (BitVec 6)
  /-- FH_STATUS MAX_CLASS. Reset 0. -/
  maxClass : BitVec 3
  /-- OVERWRITE. Reset 0. -/
  overwrite : Word
  /-- FH_CLASS_n CLASS, live and staged (commit table). Reset: the defaults of Table 09-7. -/
  cls : Vector (BitVec 3) 60
  clsStaged : Vector (BitVec 3) 60
  /-- Reports since L0 (Table 09-8 SEQ). Reset 0. -/
  seq : BitVec 16
  /-- Times of the reports of each source instance within the window (R227). Reset: none. -/
  times : List (Report × Time)
  /-- Reports detected and not yet applied (R223). Reset: none. -/
  pending : List Report
deriving DecidableEq, Repr

/-! ## Metronome (10) and frames (02) -/

/-- The sealed frame being judged (02, R22, R23). -/
structure Judged where
  frame : BitVec 16
  /-- Its Score buffer. -/
  buf : Fin 2
  /-- LINE_TIME of its judging deadline. -/
  deadline : Time
  /-- Ranges that have reached FRAME_DONE. -/
  fdone : BitVec 64
  /-- Ranges to be judged when the frame was sealed: valid, and their trunk not shed. -/
  ranges : BitVec 64
deriving DecidableEq, Repr

/-- METR (10, Table 10-7) and the frame schedule. -/
structure Metr where
  /-- LINE_TIME. Reset 0 (R235). -/
  lineTime : Time
  /-- LT_SET. Reset 0. -/
  ltSet : Time
  /-- LT_ADJ: signed ticks left to slew (R236). Reset 0. -/
  ltAdj : Word
  /-- SWEEP_CFG SWEEP_SEL, live and staged (commit table, R253). Reset 0b01. -/
  sweepSel : BitVec 2
  sweepSelS : BitVec 2
  /-- SWEEP_CFG WARN_LEAD in us. Reset 500. -/
  warnLead : BitVec 10
  /-- STW_WDOG MS. Reset 10. -/
  wdogMs : Byte
  /-- LINE_TIME of the last KICK; while the watchdog pauses, the time it has counted (R240). Reset 0. -/
  kickAt : Time
  /-- METR_STATUS REF_OK. Reset 0. -/
  refOk : Bool
  /-- METR_STATUS RC_FALLBACK. Reset 0. -/
  rcFallback : Bool
  /-- METR_STATUS STEP_REFUSED. Reset 0. -/
  stepRefused : Bool
  /-- METR_STATUS SWEEP: the period in force. Reset 0 as the register's reset says. -/
  sweep : BitVec 2
  /-- The period that takes effect at the next frame boundary (R237, R253). Reset: the selection of SWEEP_CFG, 0b01. -/
  sweepNext : Option (BitVec 2)
  /-- FRAME_NOW. Reset 0. -/
  frameNow : BitVec 16
  /-- WARN_CNT and OVERRUN_CNT. Reset 0. -/
  cnt : Vector Word 2
  /-- LINE_TIME of the last heartbeat instant (R44). Reset 0. -/
  hbAt : Time
  /-- Frames run: the open frame's boundary and the next boundary (R22, R237). Reset: none. -/
  openAt : Option Time
  nextAt : Time
  /-- The next boundary has been moved by a stretch, this device's or its peer's (R31, R340). Reset: false. -/
  moved : Bool
  /-- The Score buffer of the open frame. Reset 0. -/
  openBuf : Fin 2
  /-- The sealed frame being judged. Reset: none. -/
  judged : Option Judged
  /-- The rotating core and bit of the voter probe (R113). Reset 0. -/
  stwProbeCore : Fin 3
  stwProbeBit : BitVec 10
deriving DecidableEq, Repr

/-! ## Crescendo (10) -/

/-- A request waiting for a grant (10, R247). -/
structure Wait where
  id : Fin 29
  /-- LINE_TIME of the request. -/
  since : Time
  /-- It has been considered in an arbitration and not granted. -/
  counted : Bool
deriving DecidableEq, Repr

/-- CRES (10, Table 10-8). -/
structure Cres where
  /-- CRES_BUDGET. Reset 700. -/
  budget : BitVec 10
  /-- SEASON. Reset: WINTER. -/
  season : Season
  /-- SEASON LINE_KEEP. Reset 0. -/
  lineKeep : Bool
  /-- SEASON SLEEP_DELAY. Reset 50. -/
  sleepDelay : BitVec 10
  /-- Grants held, in the order given: CRES_GRANTED (R247). Reset: none. -/
  grants : List (Fin 29)
  /-- Requests waiting, oldest first: CRES_WAITING. Reset: none. -/
  waiting : List Wait
  /-- Releases made since the last arbitration (R247). Reset: none. -/
  released : List (Fin 29)
  /-- Class 4 holders under notice (R248). Reset: none. -/
  noticed : List (Fin 29)
  /-- Voices booked by the pre-wake (R238). Reset 0. -/
  booked : BitVec 4
  /-- Requester 28 runs an LBIST slice (160 PU) and not an MBIST group (60 PU) (Table 10-4). Reset: false. -/
  lbist : Bool
  /-- CRES_EVENT: SEASON_CHANGE, REVOKED, BUDGET_CLIPPED. Reset 0. -/
  event : BitVec 3
  /-- CRES_MAX_WAIT in ns. Reset 0. -/
  maxWait : BitVec 16
  /-- REVOKE_CNT and WAIT_CNT. Reset 0. -/
  cnt : Vector Word 2
  /-- Power state of each requester's block (Table 10-2). Reset: OFF. -/
  power : Vector PowerState 29
  /-- LINE_TIME at which each Voice entered IDLE (R242). Reset 0. -/
  idleAt : Vector Time 4
  /-- LINE_TIME of the DISARM that started AUTUMN (R244). Reset 0. -/
  drainAt : Time
deriving DecidableEq, Repr

/-! ## Always-on inputs and monitors (09, 10, 14) -/

/-- Inputs and monitors of the always-on domain (09, R204, R205, R231; 10, R234; 14, R353, R367). -/
structure Aon where
  /-- Accepted level of ARMA_N and ARMB_N. Reset: high, the level of the internal pull-up (Table 14-11). -/
  armA : Bool
  armB : Bool
  /-- Accepted level of ESTOPA_N and ESTOPB_N; a stop that is held is accepted, and reported, after the first three samples (R204).
  Reset: high, for ESTOP_IN of GOV_STATE resets to 0 (Table 09-9). -/
  estopA : Bool
  estopB : Bool
  /-- LINE_TIME since which the ESTOP channels have both been inactive, and since which both ARM channels have been released.
  Reset: 0 and 0. -/
  estopOkSince : Option Time
  armOffSince : Option Time
  /-- The ARM channels have been released together for 200 ms since the last entry into FERMATA, and an ARM cycle that began
  after that entry is complete (R205). Reset: false. -/
  armOffLong : Bool
  armCycle : Bool
  /-- ESTOP_DISC and ARM_DISC hold until their channels agree (Table 09-4). Reset: false. -/
  estopDisc : Bool
  armDisc : Bool
  /-- Rails outside their SUPPLY window, in the order of Rail (R353). Reset 0. -/
  railBad : BitVec 6
  /-- LINE_TIME since which every rail has been inside its window (R354). Reset: 0 (choice). -/
  railOkSince : Option Time
  /-- The junction is above 125 degrees (R367). Reset: false. -/
  hot : Bool
  /-- The reference is out of range; PLLs out of range: line, fab, stw, mirl, voice 0 to 3 (R234). Reset 0. -/
  refBad : Bool
  pllBad : Byte
  /-- OUT_RB is reporting (R231). Reset: false. -/
  outRb : Bool
  /-- The Fermata latch (R229, R230). Reset 0. -/
  latch : Bool
  /-- The last non-zero epoch (R207, R265). Reset 0. -/
  lastEpoch : Byte
deriving DecidableEq, Repr

/-! ## Reset, options and boot (11) -/

/-- A reset request (11, R257). -/
structure RstReq where
  src : Fin 10
  level : Level
  /-- Target of Table 11-4 for L3 and L4. -/
  target : Byte
  /-- The cause of an L0 is POR (R256). -/
  por : Bool
deriving DecidableEq, Repr

/-- The reset sequence in progress: the next step of Table 11-3 to run. -/
structure RstSeq where
  level : Level
  target : Byte
  step : Nat
deriving DecidableEq, Repr

/-- Straps and OPTR as the option phase sampled them (11, R272, R274, R275). -/
structure Options where
  bootsel : BitVec 2
  clkmode : BitVec 2
  optrCode : BitVec 4
  optrAdc : BitVec 10
  role : Role
  trunks8 : Bool
  quad : Bool
  bench : Bool
deriving DecidableEq, Repr

/-- The boot record (11, Table 11-15), its SAMPLED straps and OPTR as the last update found them (R292). -/
structure BootRec where
  format : Byte
  bootsel : BitVec 2
  clkmode : BitVec 2
  optrCode : BitVec 4
  optrAdc : BitVec 10
  codaCause : BitVec 3
  strapRsvd : Bool
  time : Time
  bist : BitVec 16
  voiceFail : BitVec 4
  stwFail : BitVec 3
  trackerFail : Byte
  trunkFail : BitVec 16
  mirlFail : Bool
  duration : BitVec 64
  reasons : BitVec 48
  optionCode : Byte
  drunorVer : BitVec 16
  slotB : Bool
  app : Bool
  svn : Byte
  appSvn : Byte
  digest : Native
  attempts : BitVec 4
  lc : BitVec 3
  lastLevel : BitVec 3
  lastSrc : BitVec 4
deriving DecidableEq, Repr

/-- RSTC (11, Table 11-17), the option phase, BIST and boot. -/
structure Rstc where
  /-- RST_REQ LEVEL. Reset 4. -/
  reqLevel : BitVec 3
  /-- RST_REQ TARGET. Reset 0. -/
  reqTarget : Byte
  /-- Requests not yet asserted (R257, R259). Reset: none. -/
  requests : List RstReq
  /-- The sequence in progress. Reset: L0 at step 2 (the option phase). -/
  seq : Option RstSeq
  /-- RST_STATUS LAST_SRC, LAST_LEVEL, LAST_TARGET. Reset 0. -/
  lastSrc : BitVec 4
  lastLevel : BitVec 3
  lastTarget : Byte
  /-- RST_STATUS BUSY. Reset 0. -/
  busy : Bool
  /-- RST_STATUS REFUSED. Reset 0. -/
  refused : Bool
  /-- RST_STATUS WARM. Reset 0. -/
  warm : Bool
  /-- RST_CAUSE. Reset 0. -/
  cause : BitVec 10
  /-- ATTEMPT COUNT. Reset 0. -/
  attempts : BitVec 4
  /-- ATTEMPT CODA. Reset 0. -/
  coda : Bool
  /-- BIST_REQ SLICES. Reset 0. -/
  bistSlices : Byte
  /-- The BIST slices still to run, lowest first, and whether BIST_REQ started them (R277, R280). Reset: none. -/
  bistTodo : List (Fin 8)
  bistManual : Bool
  /-- The first fatal slice of the BIST that runs: its detail code of Table 11-16. Reset: none. -/
  bistFatal : Option Byte
  /-- ITCM_SEAL: sealed Voices (R286). Reset 0. -/
  sealed : BitVec 4
  /-- WARM_CRC_n. Reset 0. -/
  warmCrc : Vector Word 4
  /-- L2_CNT and MERGED_CNT. Reset 0. -/
  cnt : Vector Word 2
  /-- Consecutive option-phase restarts, the code of the last one, and the hold of R271. Reset 0. -/
  restarts : Nat
  optionHold : Bool
  /-- The start has failed: the device waits for the reset or the Coda entry that follows (R289). Reset: false. -/
  failed : Bool
  /-- Straps and OPTR. Reset 0 (choice: not yet sampled). -/
  opt : Options
  /-- LC_STATE of LCYC. Reset: BLANK (choice: not yet decoded). -/
  lc : LifeCycle
  /-- The fuse array and the life-cycle fuses as the last option phase read them: what VPP_FUSE can have changed since is what Table
  11-10 permits (R276, R352). Reset: none, not yet read (choice). -/
  array : Option (Fuses × LifeCycle)
  /-- The fuse shadow. Reset: the shipped values: no deepening, the floors of Table 09-7, nothing revoked; the rest 0 (choice). -/
  fuses : Fuses
  /-- The boot record. Reset 0 (R256). -/
  bootRec : BootRec
  /-- Drunor runs (R288). Reset: false. -/
  drunor : Bool
  /-- SHA-256, load offset and length of the accepted Drunor image (R263, R284). Reset: none. -/
  digest : Option (BitVec 256 × Nat × Nat)
  /-- VERSION of the running Drunor and of the application (Table 12-7). Reset 0. -/
  drunorVersion : BitVec 64
  appVersion : BitVec 64
  /-- SEQ of the active slot's image (R314). Reset 0. -/
  activeSeq : Word
  /-- Where the accepted Drunor image came from: its application follows it there (R285). Reset: none. -/
  drunorSrc : Option ImageSource
  /-- Coda follows the L1 that a third failed start has requested: its cause (R287, R290). Reset: none. -/
  codaDue : Option (BitVec 3)
  /-- The Drunor images the ROM has rejected in this start (R285). Reset: none. -/
  rejected : List ImageSource
  /-- The boot watchdog runs (R287). Reset: false. -/
  bootWdog : Bool
  /-- RSTOUT_N is high (Table 11-5). Reset: low. -/
  rstout : Bool
deriving DecidableEq, Repr

/-! ## Host mailbox (12) -/

/-- A command that Drunor has accepted and not yet ended (12, R303). -/
structure CurCmd where
  tag : BitVec 16
  opcode : BitVec 16
  length : Nat
  irq : Bool
  crc : Word
deriving DecidableEq, Repr

/-- A response: status code and detail, and its data words (12, Table 12-4). -/
structure Response where
  tag : BitVec 16
  opcode : BitVec 16
  code : Byte
  detail : Byte
  data : List Native
  /-- DURATION in us. -/
  duration : Word
deriving DecidableEq, Repr

/-- HMBX and the window (12, Tables 12-2, 12-3, 12-12). -/
structure Hmbx where
  /-- STATUS READY (HMBX_CTRL READY). Reset 0. -/
  ready : Bool
  /-- STATUS BUSY. Reset 0 (choice). -/
  busy : Bool
  /-- STATUS CODA (HMBX_CTRL CODA). Reset 0. -/
  coda : Bool
  /-- STATUS REJECTED. Reset 0 (choice). -/
  rejected : Bool
  /-- STATUS DONE. Reset 0. -/
  done : Bool
  /-- HIRQ_N is held high: from the assertion of L0, L1 or L2 until READY (Table 11-5). Reset: true. -/
  quiet : Bool
  /-- STATUS RESET_SEEN: set at the assertion of L0. Reset 1. -/
  resetSeen : Bool
  /-- STATUS BOOT_WAIT (HMBX_CTRL BOOT_WAIT). Reset 0. -/
  bootWait : Bool
  /-- STATUS REJECT_COUNT. Reset 0 (choice). -/
  rejectCount : Byte
  /-- STATUS LAST_TAG and LAST_STATUS. Reset 0 (R305). -/
  lastTag : BitVec 16
  lastStatus : BitVec 16
  /-- BUSY_TAG. Reset 0. -/
  busyTag : BitVec 16
  /-- LINE_TIME of the accepted doorbell, from which DURATION runs (R306). Reset 0. -/
  rangAt : Time
  /-- The command region 0x100 to 0x1FF: header and 15 parameter words. Reset 0 (choice). -/
  cmd : Vector Native 16
  /-- The response region 0x200 to 0x5FF: header and 63 data words. Reset 0 (choice). -/
  rsp : Vector Native 64
  /-- The command that Drunor executes. Reset: none. -/
  cur : Option CurCmd
  /-- The response prepared for the command in progress. Reset: none. -/
  prepared : Option Response
  /-- The stored record of the last completed command: header CRC and response, in Chord (R304, R305). Reset: none. -/
  stored : Option (Word × Response)
  /-- The command recorded as in progress in Chord (R305). Reset: none. -/
  inProgress : Option CurCmd
  /-- The completed command asked for IRQ_ON_DONE and its response header has not been read since (R318). Reset: false. -/
  irqDone : Bool
  /-- The event FIFO, oldest first, at most 64 (R316). Reset: empty. -/
  fifo : List Native
  /-- SEQ of the next event entry, and whether an event was dropped since the last accepted one. Reset 0. -/
  evtSeq : BitVec 16
  evtLost : Bool
  /-- DISCARD_CNT, REPLAY_CNT, BAD_XFER_CNT, RESET_FRAME_CNT, EVT_LOST_CNT. Reset 0. -/
  cnt : Vector Word 5
  /-- A RESET_DEVICE waits for its deferred request: the level (R306). Reset: none. -/
  resetLater : Option Level
deriving DecidableEq, Repr

/-- Drunor's own state (12, R305 to R314). -/
structure Drunor where
  /-- The staged configuration: total length and the bytes held (R308). Reset: none. -/
  cfgTotal : Nat
  cfg : List Byte
  /-- COMMIT_CONFIG on A waits for B's report of the digest (R329). Reset: false. -/
  awaitPeer : Bool
  /-- Digest of the live configuration and the commit count. Reset 0 (choice). -/
  digest : BitVec 256
  commits : Word
  /-- JUDGE_PCT, POLICY and SHED_PRIO of the live configuration. Reset: 90, 0, 0 (R122). -/
  judgePct : BitVec 7
  policy : Bool
  shedPrio : BitVec 64
  /-- Trunks the configuration enables. Reset 0. -/
  trunkEn : BitVec 16
  /-- The firmware staging area: kind, total and bytes (R314). Reset: none. -/
  fwKind : Option Bool
  fwTotal : Nat
  fw : List Byte
  /-- An authenticated application image kept in staging (R314 KIND 1). Reset: none. -/
  appStaged : Option (List Byte)
  /-- The journal, oldest first, at most 4,096 entries, and the next SEQ (R312). Reset: empty. -/
  journal : List Native
  nextSeq : Word
deriving DecidableEq, Repr

/-! ## Mirror Link (13) -/

/-- A packet a device sends (13, Table 13-2). -/
inductive Packet where
  | state (arg : BitVec 64) (w0 w1 : Native)
  | hello (w0 w1 w2 w3 : Native)
  | epochPropose (e : Byte) (nonce : Word)
  | epochAck (e : Byte) (nonce : Word) (refuse : Bool)
  | epochGo (e : Byte) (nonce : Word) (s : Time)
  | goAck (e : Byte) (nonce : Word)
  | epochDrop (e : Byte)
  | delta (index : BitVec 16) (poison : BitVec 64) (words : List Native) (frame : BitVec 16)
  | sweep (sel : BitVec 2) (at_ : Time)
  | journal (entries : List Native)
  | syncOpen (kind : BitVec 4) (bytes : BitVec 64)
  | syncGrant
  | syncData (index : BitVec 16) (words : List Native)
  | syncEnd (sha : BitVec 256)
  | syncRefuse
  | resetNotice (level : BitVec 2)
  | resetReq (level : BitVec 2)
deriving DecidableEq, Repr

/-- What the Mirror lane sends next or sent last: an acknowledgement set or a numbered packet (13, R320, R322). -/
inductive MirlSet where
  | ack (seq : Byte)
  | nak (seq : Byte)
  | packet (seq : Byte) (p : Packet)
deriving DecidableEq, Repr

/-- A bulk session (13, R341). -/
structure Session where
  /-- This device sends. -/
  outgoing : Bool
  kind : BitVec 4
  /-- Bytes announced. -/
  total : Nat
  /-- Granted: data may flow. -/
  granted : Bool
  /-- The object's words: still to send, or received so far. -/
  words : List Native
  /-- Packets sent or received. -/
  count : Nat
deriving DecidableEq, Repr

/-- MIRL (13, Table 13-5) and what the pair rules keep. -/
structure Mirl where
  /-- MIRL_CTRL ENABLE. Reset 0. -/
  enable : Bool
  /-- MIRL_CTRL RELINK, set until the link is up again, and a second one held until then (R13, R14). Reset 0. -/
  relink : Bool
  relinkHeld : Bool
  /-- MIRL_STATUS PAIR_STATE. Reset: DOWN. -/
  pair : PairState
  /-- MIRL_STATUS LINK_UP. Reset 0. -/
  linkUp : Bool
  /-- MIRL_STATUS PEER_PRESENT. Reset 0. -/
  peer : Bool
  /-- MIRL_STATUS PEER_EPOCH. Reset 0. -/
  peerEpoch : Byte
  /-- Governor state and last non-zero epoch of the peer's last STATE. Reset 0. -/
  peerGov : BitVec 2
  peerLast : Byte
  /-- The peer's STATE stamp, its arrival, and the boundary and FRAME it announces (R327). Reset: none. -/
  peerArg : BitVec 64
  peerArrival : Time
  peerBoundary : Option (Time × BitVec 16)
  /-- The last HELLO of the peer: role, versions and digest, as its four words. Reset: none. -/
  peerHello : Option (Native × Native × Native × Native)
  /-- Rows of Table 13-3 as last checked: digest match, versions compatible, this device an observer, role conflict. -/
  digestMatch : Bool
  versionOk : Bool
  observer : Bool
  conflict : Bool
  /-- PAIR_STATUS SOLO_EPOCH (R338). Reset 0. -/
  soloEpoch : Bool
  /-- The survivor moves to its own-parity epoch at the next frame boundary (R338). Reset: false. -/
  soloPending : Bool
  /-- A level-2 RESET_NOTICE arrived: its LINE_TIME (R323). Reset: none. -/
  noticeAt : Option Time
  /-- MIRL_EVENT, bits 0 to 7. Reset 0. -/
  event : Byte
  /-- MIRL_IRQ_EN. Reset 0. -/
  irqEn : Byte
  /-- MIRROR_BASE [31:19]. Reset 0. -/
  mirrorBase : BitVec 13
  /-- PEER_OFFSET in ns, signed. Reset 0. -/
  offset : Word
  /-- Consecutive STATEs within 2 us (R327). Reset 0. -/
  good : Nat
  /-- TX_PKT and RX_PKT. Reset 0. -/
  txPkt : BitVec 64
  rxPkt : BitVec 64
  /-- RETX_PKT, CRC_ERR, DUP_PKT, NAK_SENT, VERDICT_DIFF_CNT, SYNC_REQUEUE_CNT. Reset 0. -/
  cnt : Vector Word 6
  /-- SEQ of the next packet to send, and of the last packet accepted (R321, R324). Reset 0 and 0xFF: 0 comes first. -/
  nextSeq : Byte
  lastSeq : Byte
  /-- One NAK has been sent for the present gap (R321). Reset: false. -/
  gapNaked : Bool
  /-- Acknowledgement and NAK sets waiting. Reset: none. -/
  ackq : List MirlSet
  /-- Packets waiting for their first transmission. Reset: none. -/
  txq : List Packet
  /-- Unacknowledged packets, oldest first, at most 16, and how many of them wait for retransmission (R321). Reset: none. -/
  unacked : List (Byte × Packet)
  resend : Nat
  /-- The set or packet sent last (model's own output record). Reset: none. -/
  out : Option MirlSet
  /-- The epoch A has proposed, with its nonce and whether B has acknowledged it (R336). Reset: none. -/
  proposed : Option (Byte × Word × Bool)
  /-- A confirmation under way: epoch, nonce, switch instant, and whether GO_ACK has come (R336). Reset: none. -/
  going : Option (Byte × Word × Time × Bool)
  /-- Epoch acknowledged by the peer (PAIR_STATUS [23:16]). Reset 0. -/
  ackedEpoch : Byte
  /-- Dirty Verdict words, by index, rising (R330). Reset: none. -/
  dirty : List Nat
  /-- Units received before this device's own FDONE of their range and frame: index, data, poison, frame (R331). Reset: none. -/
  held : List (Nat × Native × Bool × BitVec 16)
  /-- The bulk session in progress, and the kind waiting to be opened again (R341, R342). Reset: none. -/
  session : Option Session
  requeued : Option (BitVec 4)
  /-- The object a kind 3 session has delivered to the ROM, or the host has downloaded (R315, R344). Reset: empty. -/
  download : List Byte
  /-- The peer asked for the longer sweep at a boundary (R340). Reset: none. -/
  sweepAt : Option (BitVec 2 × Time)
  /-- Journal entries of B that await A's numbering (R347). Reset: none. -/
  unnumbered : List Native
deriving DecidableEq, Repr

/-! ## The whole device -/

/-- The last answer of an access: data read, and whether it completed with a bus error (model's own output record). -/
structure Answer where
  data : Native
  poison : Bool
  error : Bool
  bytes : List Byte
  /-- The poison of each native word of a line (R180). -/
  words : BitVec 4
deriving DecidableEq, Repr

/-- The state of the ZS-7716. -/
structure State where
  /-- Commands waiting, first in first out (the model's own). Reset: empty. -/
  pending : List Instr
  /-- The addressed memories (04). -/
  mem : Mems
  /-- MEMC (04). -/
  memc : Memc
  /-- OSTI (04). -/
  osti : Osti
  /-- The common headers by block code (01). -/
  hdr : Vector Hdr 39
  /-- Counter snapshots (01, R8). Reset: none. -/
  snaps : List Snap
  /-- ARB_CFG PB_STW_FIRST and CH_HMBX_FIRST (07, Table 07-7). Reset 0. -/
  arbCfg : BitVec 2
  /-- Chord and its caches (08). -/
  chord : Chord
  /-- The cores of VOICE_0 to VOICE_3 and the Steward (06). -/
  core : Vector Core 5
  /-- UNIS (05). -/
  unis : Unis
  /-- The trunk engines (03). -/
  trk : Vector Trunk 16
  /-- The Governor (09). -/
  gov : Gov
  /-- The Fault Hub (09). -/
  hub : Fhub
  /-- The Metronome and the frame schedule (10, 02). -/
  metr : Metr
  /-- Crescendo and the seasons (10). -/
  cres : Cres
  /-- Always-on inputs and monitors (09, 10, 14). -/
  aon : Aon
  /-- Reset controller, options and boot (11). -/
  rst : Rstc
  /-- Host mailbox (12). -/
  hmbx : Hmbx
  /-- Drunor (12). -/
  drunor : Drunor
  /-- Mirror Link (13). -/
  mirl : Mirl
  /-- The last answer of an access (model's own output record). Reset 0. -/
  ans : Answer
  /-- Number of the next free value (the model's own, log 5). Reset 0 (choice); no statement rests on it. -/
  free : Nat
deriving DecidableEq, Repr

/-- Reasons to stop. No row of the table stops this device: the spec gives every row an effect, and a forbidden access ends
in a bus error or an exception. The one constructor is raised by nothing; it keeps the type inhabited. Safe. -/
inductive Fault where
  /-- Raised by nothing. Safe. -/
  | unreachable
deriving DecidableEq, Repr

/-- Refusals. -/
inductive Refusal where
  /-- A row without a meaning, raised by exec's arms only. Safe. -/
  | notModelled (mnemonic : String)
deriving DecidableEq, Repr

/-! ## Reset values -/

/-- An empty memory. -/
def Ram.empty : Ram := ⟨[]⟩

/-- An empty log. -/
def PopLog.empty : PopLog := ⟨[], false⟩

/-- Default class, fused floor and escalation of a fault source (09, Table 09-7), with its ID. -/
structure SourceRow where
  id : Nat
  dflt : Klass
  floor : Klass
  esc : Option Klass

/-- The number of a class. -/
def Klass.toNat : Klass → Nat
  | .c0 => 0 | .c1 => 1 | .c2 => 2 | .c3 => 3 | .c4 => 4 | .c5 => 5 | .c6 => 6

/-- The class of a number; 7 acts as the highest. -/
def Klass.fromNat : Nat → Klass
  | 0 => .c0 | 1 => .c1 | 2 => .c2 | 3 => .c3 | 4 => .c4 | 5 => .c5 | _ => .c6

/-- Table 09-7. -/
def sourceRow : FaultSource → SourceRow
  | .estop => ⟨0, .c5, .c5, none⟩
  | .estopDisc => ⟨1, .c1, .c1, none⟩
  | .armDisc => ⟨2, .c5, .c5, none⟩
  | .outRb => ⟨3, .c5, .c5, none⟩
  | .govCheck => ⟨4, .c5, .c5, none⟩
  | .cmdPoison => ⟨5, .c1, .c1, some .c3⟩
  | .cmdFormat => ⟨6, .c1, .c1, some .c3⟩
  | .cmdOrigin => ⟨7, .c1, .c1, some .c3⟩
  | .cmdOverflow => ⟨8, .c1, .c1, none⟩
  | .cmdState => ⟨9, .c0, .c0, some .c1⟩
  | .cmdLockout => ⟨10, .c1, .c1, some .c3⟩
  | .cmdClamp => ⟨11, .c1, .c1, some .c4⟩
  | .cmdRate => ⟨12, .c1, .c0, none⟩
  | .clampCrc => ⟨13, .c1, .c1, none⟩
  | .clampLive => ⟨14, .c5, .c5, none⟩
  | .clampEntry => ⟨15, .c1, .c1, some .c5⟩
  | .frameOverrun => ⟨16, .c4, .c4, some .c5⟩
  | .rideExpired => ⟨17, .c5, .c5, none⟩
  | .lockstep => ⟨18, .c3, .c3, none⟩
  | .unisonSplit => ⟨19, .c3, .c3, none⟩
  | .unisonRail => ⟨20, .c3, .c3, none⟩
  | .unisonProbe => ⟨21, .c3, .c3, none⟩
  | .voiceWdog => ⟨22, .c3, .c3, none⟩
  | .corePoison => ⟨23, .c1, .c0, some .c3⟩
  | .stwVote => ⟨24, .c1, .c1, some .c6⟩
  | .stwVoter => ⟨25, .c6, .c6, none⟩
  | .stwDual => ⟨26, .c6, .c6, none⟩
  | .stwDegraded => ⟨27, .c1, .c1, none⟩
  | .stwWdog => ⟨28, .c6, .c6, none⟩
  | .stwLost => ⟨29, .c5, .c5, none⟩
  | .chmapCrc => ⟨30, .c5, .c5, none⟩
  | .memCe => ⟨31, .c0, .c0, some .c1⟩
  | .fabricCe => ⟨32, .c0, .c0, some .c1⟩
  | .memUe => ⟨33, .c1, .c1, none⟩
  | .memAddr => ⟨34, .c1, .c1, none⟩
  | .fabricUe => ⟨35, .c1, .c1, none⟩
  | .ostiMarch => ⟨36, .c1, .c1, none⟩
  | .ostiStall => ⟨37, .c1, .c1, none⟩
  | .cohTrack => ⟨38, .c5, .c5, none⟩
  | .cohDegrade => ⟨39, .c1, .c1, none⟩
  | .cohSlice => ⟨40, .c5, .c5, none⟩
  | .cohProto => ⟨41, .c5, .c5, none⟩
  | .cohStray => ⟨42, .c1, .c0, some .c5⟩
  | .cohLost => ⟨43, .c1, .c1, none⟩
  | .cohAged => ⟨44, .c0, .c0, none⟩
  | .trkLinkDown => ⟨45, .c1, .c1, some .c4⟩
  | .trkLinkLost => ⟨46, .c4, .c4, none⟩
  | .discFail => ⟨47, .c1, .c1, none⟩
  | .discMismatch => ⟨48, .c1, .c0, none⟩
  | .concLost => ⟨49, .c4, .c4, none⟩
  | .seqConflict => ⟨50, .c1, .c0, some .c4⟩
  | .misroute => ⟨51, .c1, .c0, some .c4⟩
  | .sentinelTrip => ⟨52, .c1, .c0, none⟩
  | .trkEngine => ⟨53, .c4, .c4, none⟩
  | .pairLink => ⟨54, .c1, .c1, none⟩
  | .pairTime => ⟨55, .c1, .c1, none⟩
  | .roleConflict => ⟨56, .c1, .c1, none⟩
  | .supply => ⟨57, .c5, .c5, none⟩
  | .thermal => ⟨58, .c5, .c5, none⟩
  | .clock => ⟨59, .c5, .c5, none⟩

/-- The sources in the order of their IDs. -/
def FaultSource.all : List FaultSource := [
  .estop, .estopDisc, .armDisc, .outRb, .govCheck, .cmdPoison,
  .cmdFormat, .cmdOrigin, .cmdOverflow, .cmdState, .cmdLockout, .cmdClamp,
  .cmdRate, .clampCrc, .clampLive, .clampEntry, .frameOverrun, .rideExpired,
  .lockstep, .unisonSplit, .unisonRail, .unisonProbe, .voiceWdog, .corePoison,
  .stwVote, .stwVoter, .stwDual, .stwDegraded, .stwWdog, .stwLost,
  .chmapCrc, .memCe, .fabricCe, .memUe, .memAddr, .fabricUe,
  .ostiMarch, .ostiStall, .cohTrack, .cohDegrade, .cohSlice, .cohProto,
  .cohStray, .cohLost, .cohAged, .trkLinkDown, .trkLinkLost, .discFail,
  .discMismatch, .concLost, .seqConflict, .misroute, .sentinelTrip, .trkEngine,
  .pairLink, .pairTime, .roleConflict, .supply, .thermal, .clock]

/-- The source of an ID, if there is one. -/
def FaultSource.ofId (n : Nat) : Option FaultSource := FaultSource.all[n]?

/-- The shipped defaults of FH_CLASS_n. -/
def defaultClasses : Vector (BitVec 3) 60 :=
  Vector.ofFn (fun i => BitVec.ofNat 3 (((FaultSource.ofId i.val).map (fun f => (sourceRow f).dflt.toNat)).getD 0))

/-- The shipped fused floors. -/
def shippedFloors : Vector (BitVec 3) 60 :=
  Vector.ofFn (fun i => BitVec.ofNat 3 (((FaultSource.ofId i.val).map (fun f => (sourceRow f).floor.toNat)).getD 0))

/-- The fuse shadow of a shipped device (R226, R258; the key hash and serial 0 are a choice, log 4). -/
def fusesShipped : Fuses :=
  ⟨Vector.replicate 10 0, shippedFloors, 0, 0, 0, 0, 0, Vector.replicate 3 0⟩

/-- The common header at reset (Table 01-2). -/
def Hdr.reset : Hdr := ⟨false, false, false, false, 0, 0⟩

/-- The memories at reset: zero-filled (R282). -/
def Mems.reset : Mems :=
  ⟨Vector.replicate 5 .empty, Vector.replicate 5 .empty, .empty, Vector.replicate 2 .empty, Vector.replicate 2 false, .empty,
   [], []⟩

/-- MEMC at reset (Table 04-11). -/
def Memc.reset : Memc := ⟨false, 0, 0, 0, 0, Vector.replicate 6 0, .empty, .empty⟩

/-- OSTI at reset (Table 04-10). -/
def Osti.reset : Osti := ⟨true, 125, 8, 0, none, 0, 0, 0, Vector.replicate 4 0, 0, 0, false⟩

/-- A slice at reset (Table 08-8). -/
def Slice.reset : Slice :=
  ⟨0, false, false, false, .checked, none, false, false, [], [], [], Vector.replicate 64 0, [], [], []⟩

/-- Chord at reset (Table 08-8). -/
def Chord.reset : Chord :=
  ⟨Vector.replicate 4 .reset, Vector.replicate 5 [], [], false, 0, 0, false, 0, 0, 0, 0, 0, Vector.replicate 6 0, .empty⟩

/-- A core after an L3 reset (R128, Table 06-1). -/
def Core.reset : Core where
  g := Vector.replicate 32 0
  gTag := 0
  v := Vector.replicate 16 0
  vTag := 0
  lane := []
  pc := 0x07000000
  curLvl := 0
  ie := false
  maskLvl := 0
  inLoop := false
  epc := 0
  ecause := 0
  eaddr := 0
  vtable := 0
  loopStart := 0
  loopEnd := 0
  loopCount := 0
  loopBuf := false
  loopPart := false
  cycle := 0
  cycleSnap := none
  frame := 0
  poisonJudged := 0
  divAbandon := 0
  wdogLimit := 2000
  wdogStaged := 2000
  wdogAt := 0
  icuEn := 0
  icuPend := 0
  icuLvl := Vector.replicate 8 0
  cueReady := 0
  cueSlot := Vector.replicate 32 ⟨0, 0, 0, false⟩
  cueCancelWon := 0
  cueMerge := 0
  waiting := false
  draining := false
  blocked := false
  doubleFault := false
  late := []
  egress := []
  inReset := true

/-- UNIS at reset (Table 05-7). -/
def Unis.reset : Unis where
  rejoin := false
  rejoinOf := 0
  rejoinHeld := none
  rejoinV := 0
  outV := 0
  alive := 0
  tacet := 0
  notLive := 0
  outReset := 0
  outProbed := 0
  una := Vector.replicate 4 ⟨0, 0, none⟩
  unb := Vector.replicate 4 ⟨0, 0, none⟩
  returnReq := 0
  stwMasked := 0
  stwMaskedAt := 0
  stwMaskNum := Vector.replicate 3 0
  stwDegraded := false
  stwAway := none
  probeIdx := 0
  event := 0
  irqEn := 0
  chmapBase := 0
  chmapCrc := 0
  chmap := Vector.replicate 64 0
  mapHeld := false
  planMask := 0
  planSweep := 0
  planShed := 0
  planPending := false
  committed := false
  out := Vector.replicate 4 ⟨0, 0, 0, 0, 0, 0⟩
  rehome := Vector.replicate 4 0
  rehomeL2 := 0
  movedRanges := 0
  cnt := Vector.replicate 4 0
  owner := 0
  plan := Vector.replicate 16 ⟨0, 0, 0, false⟩
  planStaged := Vector.replicate 16 ⟨0, 0, 0, false⟩

/-- What the engine keeps for a concentrator at reset. -/
def ConcState.reset : ConcState := ⟨0, false, [], false, 1, []⟩

/-- A trunk engine at reset (Table 03-11). -/
def Trunk.reset : Trunk where
  enable := false
  loopback := false
  concExpect := 0
  retryRes := 0x32
  maxNak := 3
  link := .down
  relocking := false
  failed := false
  relink := false
  relinkHeld := false
  discs := 0
  concFound := 0
  veto := false
  event := 0
  irqEn := 0
  routeBase := 0
  route := Vector.replicate 32 none
  concLost := 0
  rxRec := 0
  txCmd := 0
  cnt := Vector.replicate 14 0
  missLast := 0
  sentVmax := Vector.replicate 16 0
  sentVmin := Vector.replicate 16 0
  sentTmax := Vector.replicate 16 0
  sentVmaxS := Vector.replicate 16 0
  sentVminS := Vector.replicate 16 0
  sentTmaxS := Vector.replicate 16 0
  urgLog := .empty
  written := []
  conc := Vector.replicate 32 .reset
  nextSeqB := 1
  winB := []
  burst := none
  linkq := []
  txq := []
  out := []

/-- CRC-32C of 256 zero bytes, the zero clamp table (R52; checked in Tests). -/
def zeroClampCrc : Word := 0xB872B190

/-- The Governor at reset (Table 09-9, R201). -/
def Gov.reset : Gov where
  state := .disarmed
  epoch := 0
  epochHb := 0
  commitWin := false
  stage := none
  nonce := 0
  echo := 0
  result := 0
  rate := 256
  rateStaged := 256
  rideFrames := 0
  rideFramesS := 0
  clampCrcExp := 0
  clamp := Vector.replicate 16 ⟨0, 0⟩
  clampStaged := Vector.replicate 16 0
  clampFailed := 0
  clampCrc := zeroClampCrc
  hasCommit := true
  zoneTrip := 0
  trainedSince := 0
  c4Since := 0
  event := 0
  irqEn := 0
  relCmd := 0
  cnt := Vector.replicate 11 0
  lastBlocked := 0
  staged := Vector.replicate 5 []
  pushed := Vector.replicate 64 0
  fallback := 0
  tokens := 0
  riding := false
  unjudged := 0
  pairBlocked := false
  rbBad := 0
  rbSkip := 0
  tripOn := false
  zone := 0

/-- The Fault Hub at reset (Table 09-10). -/
def Fhub.reset : Fhub where
  injSrc := 0
  escN := 3
  escNS := 3
  escWin := 1000
  escWinS := 1000
  head := 0
  log := Vector.replicate 64 0
  order := []
  maxClass := 0
  overwrite := 0
  cls := defaultClasses
  clsStaged := defaultClasses
  seq := 0
  times := []
  pending := []

/-- The Metronome at reset (Table 10-7). -/
def Metr.reset : Metr where
  lineTime := 0
  ltSet := 0
  ltAdj := 0
  sweepSel := 1
  sweepSelS := 1
  warnLead := 500
  wdogMs := 10
  kickAt := 0
  refOk := false
  rcFallback := false
  stepRefused := false
  sweep := 0
  sweepNext := some 1
  frameNow := 0
  cnt := Vector.replicate 2 0
  hbAt := 0
  openAt := none
  nextAt := 0
  moved := false
  openBuf := 0
  judged := none
  stwProbeCore := 0
  stwProbeBit := 0

/-- Crescendo at reset (Table 10-8). -/
def Cres.reset : Cres where
  budget := 700
  season := .winter
  lineKeep := false
  sleepDelay := 50
  grants := []
  waiting := []
  released := []
  noticed := []
  booked := 0
  lbist := false
  event := 0
  maxWait := 0
  cnt := Vector.replicate 2 0
  power := Vector.replicate 29 .off
  idleAt := Vector.replicate 4 0
  drainAt := 0

/-- The always-on inputs at reset. -/
def Aon.reset : Aon where
  armA := true
  armB := true
  estopA := true
  estopB := true
  estopOkSince := some 0
  armOffSince := some 0
  armOffLong := false
  armCycle := false
  estopDisc := false
  armDisc := false
  railBad := 0
  railOkSince := some 0
  hot := false
  refBad := false
  pllBad := 0
  outRb := false
  latch := false
  lastEpoch := 0

/-- The boot record after POR (R256). -/
def BootRec.reset : BootRec where
  format := 0
  bootsel := 0
  clkmode := 0
  optrCode := 0
  optrAdc := 0
  codaCause := 0
  strapRsvd := false
  time := 0
  bist := 0
  voiceFail := 0
  stwFail := 0
  trackerFail := 0
  trunkFail := 0
  mirlFail := false
  duration := 0
  reasons := 0
  optionCode := 0
  drunorVer := 0
  slotB := false
  app := false
  svn := 0
  appSvn := 0
  digest := 0
  attempts := 0
  lc := 0
  lastLevel := 0
  lastSrc := 0

/-- The reset controller at reset (Table 11-17). -/
def Rstc.reset : Rstc where
  reqLevel := 4
  reqTarget := 0
  requests := []
  seq := some ⟨.l0, 0, 2⟩
  lastSrc := 0
  lastLevel := 0
  lastTarget := 0
  busy := false
  refused := false
  warm := false
  cause := 0
  attempts := 0
  coda := false
  bistSlices := 0
  bistTodo := []
  bistManual := false
  bistFatal := none
  sealed := 0
  warmCrc := Vector.replicate 4 0
  cnt := Vector.replicate 2 0
  restarts := 0
  optionHold := false
  failed := false
  opt := ⟨0, 0, 0, 0, .solo, false, false, false⟩
  lc := .blank
  array := none
  fuses := fusesShipped
  bootRec := .reset
  drunor := false
  digest := none
  drunorVersion := 0
  appVersion := 0
  activeSeq := 0
  drunorSrc := none
  codaDue := none
  rejected := []
  bootWdog := false
  rstout := false

/-- The mailbox at reset (Table 12-12, R305). -/
def Hmbx.reset : Hmbx where
  ready := false
  busy := false
  coda := false
  rejected := false
  done := false
  quiet := true
  resetSeen := true
  bootWait := false
  rejectCount := 0
  lastTag := 0
  lastStatus := 0
  busyTag := 0
  rangAt := 0
  cmd := Vector.replicate 16 0
  rsp := Vector.replicate 64 0
  cur := none
  prepared := none
  stored := none
  inProgress := none
  irqDone := false
  fifo := []
  evtSeq := 0
  evtLost := false
  cnt := Vector.replicate 5 0
  resetLater := none

/-- Drunor's state at reset. -/
def Drunor.reset : Drunor where
  cfgTotal := 0
  cfg := []
  awaitPeer := false
  digest := 0
  commits := 0
  judgePct := 90
  policy := false
  shedPrio := 0
  trunkEn := 0
  fwKind := none
  fwTotal := 0
  fw := []
  appStaged := none
  journal := []
  nextSeq := 0

/-- The Mirror Link at reset (Table 13-5). -/
def Mirl.reset : Mirl where
  enable := false
  relink := false
  relinkHeld := false
  pair := .down
  linkUp := false
  peer := false
  peerEpoch := 0
  peerGov := 0
  peerLast := 0
  peerArg := 0
  peerArrival := 0
  peerBoundary := none
  peerHello := none
  digestMatch := false
  versionOk := false
  observer := false
  conflict := false
  soloEpoch := false
  soloPending := false
  noticeAt := none
  event := 0
  irqEn := 0
  mirrorBase := 0
  offset := 0
  good := 0
  txPkt := 0
  rxPkt := 0
  cnt := Vector.replicate 6 0
  nextSeq := 0
  lastSeq := 0xFF
  gapNaked := false
  ackq := []
  txq := []
  unacked := []
  resend := 0
  out := none
  proposed := none
  going := none
  ackedEpoch := 0
  dirty := []
  held := []
  session := none
  requeued := none
  download := []
  sweepAt := none
  unnumbered := []

/-- The device right after POR: the always-on logic is released and the option phase is next (R261 step 1). -/
def State.reset : State where
  pending := []
  mem := .reset
  memc := .reset
  osti := .reset
  hdr := Vector.replicate 39 .reset
  snaps := []
  arbCfg := 0
  chord := .reset
  core := Vector.replicate 5 .reset
  unis := .reset
  trk := Vector.replicate 16 .reset
  gov := .reset
  hub := .reset
  metr := .reset
  cres := .reset
  aon := .reset
  rst := .reset
  hmbx := .reset
  drunor := .reset
  mirl := .reset
  ans := ⟨0, false, false, [], 0⟩
  free := 0

end Sys2Proof.Machine
end

