-- ==== Sys2Proof/Machine/Codes.lean ====
section
/-!
DEFINITION. The codes: CRC-16 (R51) and CRC-32C (R52), the word code's columns and syndrome decode (R90, R91), SHA-256 and
ECDSA over P-256, which R284 and R309 name without defining (log 9).
-/
namespace Sys2Proof.Machine

/-! ## Bytes -/

/-- The first `n` bytes of a value, lowest address first (R5). -/
def bytesOf {w : Nat} (n : Nat) (x : BitVec w) : List Byte :=
  (List.range n).map (fun i => x.extractLsb' (8 * i) 8)

/-- The number whose bytes, lowest first, are these (R5). -/
def natOfBytes : List Byte → Nat
  | [] => 0
  | b :: bs => b.toNat + 256 * natOfBytes bs

/-- A value from its bytes, lowest first (R5). -/
def ofBytes (w : Nat) (bs : List Byte) : BitVec w := BitVec.ofNat w (natOfBytes bs)

/-- Bytes cut into native words, the last filled with zero bytes; `fuel` bounds the number of words. -/
def wordsOfBytes : Nat → List Byte → List Native
  | 0, _ => []
  | _ + 1, [] => []
  | fuel + 1, bs => ofBytes 128 (bs.take 16) :: wordsOfBytes fuel (bs.drop 16)

/-! ## CRC-16 and CRC-32C -/

/-- One bit of the CRC-16, most significant bit first. -/
def crc16Bit (c : BitVec 16) : BitVec 16 := if c.msb then (c <<< 1) ^^^ 0x1021 else c <<< 1

/-- One byte of the CRC-16. -/
def crc16Byte (c : BitVec 16) (b : Byte) : BitVec 16 :=
  Nat.repeat crc16Bit 8 (c ^^^ (b.setWidth 16 <<< 8))

/-- The CRC-16 of Celif (R51). -/
def crc16 (bs : List Byte) : BitVec 16 := bs.foldl crc16Byte 0xFFFF

/-- The CRC-16 of a record or a command word, over bits [111:0] (R51). -/
def crc16Word (x : Native) : BitVec 16 := crc16 (bytesOf 14 x)

/-- One bit of the reflected CRC-32C. -/
def crc32cBit (c : Word) : Word := if c.getLsbD 0 then (c >>> 1) ^^^ 0x82F63B78 else c >>> 1

/-- One byte of the CRC-32C register. -/
def crc32cByte (c : Word) (b : Byte) : Word := Nat.repeat crc32cBit 8 (c ^^^ b.setWidth 32)

/-- The CRC-32C register after more bytes. -/
def crc32cRun (c : Word) (bs : List Byte) : Word := bs.foldl crc32cByte c

/-- The CRC-32C (R52). -/
def crc32c (bs : List Byte) : Word := ~~~ crc32cRun 0xFFFFFFFF bs

/-- The CRC-32C over native words in ascending order. -/
def crc32cWords (ws : List Native) : Word := ~~~ ws.foldl (fun c w => crc32cRun c (bytesOf 16 w)) 0xFFFFFFFF

/-! ## The word code -/

/-- The columns of d0 to d127 and a0 to a23, in bit order (Table 04-5). -/
def columns : List (BitVec 9) :=
  [0x007, 0x00B, 0x00D, 0x00E, 0x013, 0x015, 0x016, 0x019, 0x01A, 0x01C, 0x023, 0x025,
   0x026, 0x029, 0x02A, 0x02C, 0x031, 0x032, 0x034, 0x038, 0x043, 0x045, 0x046, 0x049,
   0x04A, 0x04C, 0x051, 0x052, 0x054, 0x058, 0x061, 0x062, 0x064, 0x068, 0x070, 0x083] ++
  [0x085, 0x086, 0x089, 0x08A, 0x08C, 0x091, 0x092, 0x094, 0x098, 0x0A1, 0x0A2, 0x0A4,
   0x0A8, 0x0B0, 0x0C1, 0x0C2, 0x0C4, 0x0C8, 0x0D0, 0x0E0, 0x103, 0x105, 0x106, 0x109,
   0x10A, 0x10C, 0x111, 0x112, 0x114, 0x118, 0x121, 0x122, 0x124, 0x128, 0x130, 0x141] ++
  [0x142, 0x144, 0x148, 0x150, 0x160, 0x181, 0x182, 0x184, 0x188, 0x190, 0x1A0, 0x1C0,
   0x01F, 0x02F, 0x037, 0x03B, 0x03D, 0x03E, 0x04F, 0x057, 0x05B, 0x05D, 0x05E, 0x067,
   0x06B, 0x06D, 0x06E, 0x073, 0x075, 0x076, 0x079, 0x07A, 0x07C, 0x08F, 0x097, 0x09B] ++
  [0x09D, 0x09E, 0x0A7, 0x0AB, 0x0AD, 0x0AE, 0x0B3, 0x0B5, 0x0B6, 0x0B9, 0x0BA, 0x0BC,
   0x0C7, 0x0CB, 0x0CD, 0x0CE, 0x0D3, 0x0D5, 0x0D6, 0x0D9] ++
  [0x0DA, 0x0DC, 0x0E3, 0x0E5, 0x0E6, 0x0E9, 0x0EA, 0x0EC, 0x0F1, 0x0F2, 0x0F4, 0x0F8,
   0x10F, 0x117, 0x11B, 0x11D, 0x11E, 0x127, 0x12B, 0x12D, 0x12E, 0x133, 0x135, 0x136]

/-- The column of data bit `i` (Table 04-5). -/
def dataColumn (i : Nat) : BitVec 9 := columns[i]?.getD 0

/-- The column of address bit `i` (Table 04-5). -/
def addrColumn (i : Nat) : BitVec 9 := columns[128 + i]?.getD 0

/-- The check-bit vector of a data word at an address (R90). -/
def checkBits (data : Native) (a : BitVec 24) : BitVec 9 :=
  (setBits a).foldl (fun c i => c ^^^ addrColumn i) ((setBits data).foldl (fun c i => c ^^^ dataColumn i) 0)

/-- What a syndrome says (Table 04-6). -/
inductive Syndrome where
  | clean | checkBit | dataBit (i : Nat) | address | poisoned | uncorrectable
deriving DecidableEq, Repr

/-- Table 04-6. -/
def decodeSyndrome (s : BitVec 9) : Syndrome :=
  if s = 0 then .clean
  else if popCount s = 1 then .checkBit
  else if s = 0x1FF then .poisoned
  else
    match columns.findIdx? (· == s) with
    | some i => if i < 128 then .dataBit i else .address
    | none => .uncorrectable

/-- What a read of a stored word delivers: data and poison (Table 04-6). -/
def Cell.deliver (c : Cell) : Native × Bool :=
  match decodeSyndrome c.syn with
  | .clean | .checkBit => (c.data, false)
  | .dataBit i => (c.data ^^^ oneHot 128 i, false)
  | .address | .poisoned | .uncorrectable => (c.data, true)

/-- A clean or a poisoned stored word (R90). -/
def Cell.store (data : Native) (poison : Bool) : Cell := ⟨data, if poison then 0x1FF else 0⟩

/-! ## SHA-256 (log 9) -/

/-- The first 64 primes, from which SHA-256 takes its constants. -/
def shaPrimes : List Nat :=
  [2, 3, 5, 7, 11, 13, 17, 19, 23, 29, 31, 37, 41, 43, 47, 53] ++ [59, 61, 67, 71, 73, 79, 83, 89, 97, 101, 103, 107, 109, 113, 127, 131] ++
  [137, 139, 149, 151, 157, 163, 167, 173, 179, 181, 191, 193, 197, 199, 211, 223] ++
  [227, 229, 233, 239, 241, 251, 257, 263, 269, 271, 277, 281, 283, 293, 307, 311]

/-- The greatest root below 2 ^ k, added to `r`, whose power `n` does not exceed `x`: one bit of it a step. -/
def rootBits (n x : Nat) : Nat → Nat → Nat
  | 0, r => r
  | k + 1, r => rootBits n x k (if (r + 2 ^ k) ^ n ≤ x then r + 2 ^ k else r)

/-- The first 32 bits of the fraction of the n-th root of a prime. -/
def rootWord (n p : Nat) : Word := BitVec.ofNat 32 (rootBits n (p * 2 ^ (32 * n)) 37 0)

/-- The round constants: of the cube roots. -/
def shaK : List Word := shaPrimes.map (rootWord 3)

/-- The initial hash value: of the square roots of the first eight primes. -/
def shaInit : List Word := (shaPrimes.take 8).map (rootWord 2)

/-- A big-endian word from four bytes. -/
def beWord (bs : List Byte) : Word := BitVec.ofNat 32 (bs.foldl (fun n b => n * 256 + b.toNat) 0)

/-- The sum of a word's rotations by the amounts listed. -/
def rotSum (rs : List Nat) (x : Word) : Word := rs.foldl (fun acc r => acc ^^^ x.rotateRight r) 0

/-- Word `i` of a list. -/
def nthWord (ws : List Word) (i : Nat) : Word := ws[i]?.getD 0

/-- `n` more words of the message schedule, after a list that holds the newest first. -/
def shaExtend (n : Nat) (newestFirst : List Word) : List Word :=
  Nat.repeat (fun ws =>
    let mix := fun (i sh : Nat) (rs : List Nat) => rotSum rs (nthWord ws i) ^^^ (nthWord ws i >>> sh)
    (nthWord ws 6 + nthWord ws 15 + mix 1 10 [17, 19] + mix 14 3 [7, 18]) :: ws) n newestFirst

/-- One round over the eight working words: the fifth chooses between the sixth and seventh, the first three vote. -/
def shaRound (v : List Word) (constant message : Word) : List Word :=
  let chosen := nthWord v 6 ^^^ (nthWord v 4 &&& (nthWord v 5 ^^^ nthWord v 6))
  let voted := (nthWord v 0 &&& (nthWord v 1 ||| nthWord v 2)) ||| (nthWord v 1 &&& nthWord v 2)
  let fed := nthWord v 7 + rotSum [6, 11, 25] (nthWord v 4) + chosen + constant + message
  (fed + rotSum [2, 13, 22] (nthWord v 0) + voted) :: v.take 3 ++ (nthWord v 3 + fed) :: (v.drop 4).take 3

/-- One 64-byte block of SHA-256. -/
def shaBlock (h : List Word) (block : List Byte) : List Word :=
  let first := (List.range 16).map (fun i => beWord ((block.drop (4 * i)).take 4))
  let message := (shaExtend 48 first.reverse).reverse
  List.zipWith (· + ·) h ((List.zip shaK message).foldl (fun v km => shaRound v km.1 km.2) h)

/-- The blocks of a padded message. -/
def shaBlocks : Nat → List Word → List Byte → List Word
  | 0, h, _ => h
  | n + 1, h, bs => shaBlocks n (shaBlock h (bs.take 64)) (bs.drop 64)

/-- SHA-256, as a number whose most significant byte is the digest's first (log 9). -/
def sha256 (msg : List Byte) : BitVec 256 :=
  let n := msg.length
  let zeros := (119 - n % 64) % 64
  let padded := msg ++ [0x80] ++ List.replicate zeros 0 ++ (bytesOf 8 (BitVec.ofNat 64 (8 * n))).reverse
  let h := shaBlocks (padded.length / 64) shaInit padded
  BitVec.ofNat 256 (h.foldl (fun a w => a * 2 ^ 32 + w.toNat) 0)

/-- A digest as it is stored: its first byte at the lowest address (R5; log 9). -/
def digestBytes (d : BitVec 256) : List Byte := (bytesOf 32 d).reverse

/-- A stored digest's value. -/
def digestOfBytes (bs : List Byte) : BitVec 256 := ofBytes 256 bs.reverse

/-! ## ECDSA over P-256 (log 9) -/

/-- The prime, the order, the coefficient b and the base point of P-256. -/
def p256P : Nat := 2 ^ 256 - 2 ^ 224 + 2 ^ 192 + 2 ^ 96 - 1
def p256N : Nat := 0xFFFFFFFF00000000FFFFFFFFFFFFFFFFBCE6FAADA7179E84F3B9CAC2FC632551
def p256B : Nat := 0x5AC635D8AA3A93E7B3EBBD55769886BC651D06B0CC53B0F63BCE3C3E27D2604B
def p256G : Nat × Nat :=
  (0x6B17D1F2E12C4247F8BCE6E563A440F277037D812DEB33A0F4A13945D898C296,
   0x4FE342E2FE1A7F9B8EE7EB4A7C0F9E162BCE33576B315ECECBB6406837BF51F5)

/-- A power modulo m, by `fuel` squarings. -/
def powMod (m : Nat) : Nat → Nat → Nat → Nat
  | 0, _, _ => 1 % m
  | fuel + 1, b, e =>
    let r := powMod m fuel (b * b % m) (e / 2)
    if e % 2 = 1 then r * b % m else r

/-- The inverse modulo a prime. -/
def invMod (m x : Nat) : Nat := powMod m 256 (x % m) (m - 2)

/-- The sum of two points; none is the point at infinity. -/
def p256Add : Option (Nat × Nat) → Option (Nat × Nat) → Option (Nat × Nat)
  | none, q => q
  | q, none => q
  | some (x1, y1), some (x2, y2) =>
    let p := p256P
    if x1 = x2 && (y1 + y2) % p = 0 then none
    else
      let l := if x1 = x2 then (3 * x1 * x1 + (p - 3)) * invMod p (2 * y1) % p
        else (y2 + p - y1) * invMod p (x2 + p - x1) % p
      let x3 := (l * l + 2 * p - x1 - x2) % p
      some (x3, (l * (x1 + p - x3) + p - y1) % p)

/-- A multiple of a point, by `fuel` doublings. -/
def p256Mul : Nat → Nat → Option (Nat × Nat) → Option (Nat × Nat)
  | 0, _, _ => none
  | fuel + 1, k, q =>
    let r := p256Mul fuel (k / 2) (p256Add q q)
    if k % 2 = 1 then p256Add r q else r

/-- The ECDSA check of a signature (r, s) over a digest with a public key. -/
def ecdsaVerify (digest : BitVec 256) (qx qy r s : BitVec 256) : Bool :=
  let n := p256N
  let p := p256P
  let x := qx.toNat
  let y := qy.toNat
  if x < p && y < p && (y * y) % p == (x * x * x + (p - 3) * x + p256B) % p
    && r.toNat != 0 && s.toNat != 0 && r.toNat < n && s.toNat < n then
    let w := invMod n s.toNat
    let u1 := digest.toNat * w % n
    let u2 := r.toNat * w % n
    match p256Add (p256Mul 256 u1 (some p256G)) (p256Mul 256 u2 (some (x, y))) with
    | some (x1, _) => x1 % n == r.toNat
    | none => false
  else false

end Sys2Proof.Machine
end

