-- ==== Sys2Proof/Machine/Ops.lean ====
section
/-!
DEFINITION. The shared operations every family uses: updates of one block, one core or one trunk; counters with CNT_OVF (R15);
events and the Steward's interrupts; posts to a cluster's Cue and ICU (R154, R158); power requests (R241, R247); fault reports
on their way to the Fault Hub (R223); time.
-/
namespace Sys2Proof.Machine

/-- The outcome of a command that has an effect. -/
abbrev Out := Host.Outcome State Fault Refusal

/-! ## Vectors -/

/-- A vector with element `i` changed. -/
def upd {α : Type} {n : Nat} (v : Vector α n) (i : Fin n) (f : α → α) : Vector α n := v.set i.val (f v[i]) i.isLt

/-- A vector with element `i` changed, if there is one. -/
def updN {α : Type} {n : Nat} (v : Vector α n) (i : Nat) (f : α → α) : Vector α n :=
  if h : i < n then v.set i (f v[i]) h else v

/-- Element `i`, or `d` if there is none. -/
def getN {α : Type} {n : Nat} (v : Vector α n) (i : Nat) (d : α) : α := if h : i < n then v[i] else d

/-! ## Block codes (Table 04-13) -/

def blkSysctl : BlkId := 0
def blkRstc : BlkId := 1
def blkCres : BlkId := 2
def blkMetr : BlkId := 3
def blkFhub : BlkId := 4
def blkGov : BlkId := 5
def blkUnis : BlkId := 6
def blkOsti : BlkId := 7
def blkChord : BlkId := 8
def blkMemc : BlkId := 9
def blkMirl : BlkId := 32
def blkHmbx : BlkId := 33
def blkXspi : BlkId := 34
def blkGpio : BlkId := 35
def blkAmon : BlkId := 36
def blkFuse : BlkId := 37
def blkLcyc : BlkId := 38

/-- The block of a trunk engine. -/
def blkTrk (t : TrkId) : BlkId := ⟨16 + t.val, by omega⟩

/-- The trunk engine of a block, if it is one. -/
def trkOfBlk (b : BlkId) : Option TrkId :=
  if h : 16 ≤ b.val ∧ b.val < 32 then some ⟨b.val - 16, by omega⟩ else none

/-- The Steward's cluster. -/
def stw : Cl := 4

/-- A Voice's cluster. -/
def vcl (v : Vc) : Cl := ⟨v.val, by omega⟩

/-- The Voice of a cluster; none for the Steward. -/
def voiceOf (c : Cl) : Option Vc := if h : c.val < 4 then some ⟨c.val, h⟩ else none

/-- The Voices in order. -/
def voices : List Vc := [0, 1, 2, 3]

/-- The trunks in order. -/
def trunks : List TrkId := [0, 1, 2, 3, 4, 5, 6, 7, 8, 9, 10, 11, 12, 13, 14, 15]

/-- The slices in order. -/
def slices : List SliceId := [0, 1, 2, 3]

/-- The clusters in order. -/
def clusters : List Cl := [0, 1, 2, 3, 4]

/-! ## Updates of one part -/

def State.onCore (s : State) (c : Cl) (f : Core → Core) : State := { s with core := upd s.core c f }
def State.onTrk (s : State) (t : TrkId) (f : Trunk → Trunk) : State := { s with trk := upd s.trk t f }
def State.onHdr (s : State) (b : BlkId) (f : Hdr → Hdr) : State := { s with hdr := upd s.hdr b f }
def State.onSlice (s : State) (i : SliceId) (f : Slice → Slice) : State :=
  { s with chord := { s.chord with slice := upd s.chord.slice i f } }
def State.onGov (s : State) (f : Gov → Gov) : State := { s with gov := f s.gov }
def State.onHub (s : State) (f : Fhub → Fhub) : State := { s with hub := f s.hub }
def State.onUnis (s : State) (f : Unis → Unis) : State := { s with unis := f s.unis }
def State.onMetr (s : State) (f : Metr → Metr) : State := { s with metr := f s.metr }
def State.onCres (s : State) (f : Cres → Cres) : State := { s with cres := f s.cres }
def State.onAon (s : State) (f : Aon → Aon) : State := { s with aon := f s.aon }
def State.onRst (s : State) (f : Rstc → Rstc) : State := { s with rst := f s.rst }
def State.onHmbx (s : State) (f : Hmbx → Hmbx) : State := { s with hmbx := f s.hmbx }
def State.onDrunor (s : State) (f : Drunor → Drunor) : State := { s with drunor := f s.drunor }
def State.onMirl (s : State) (f : Mirl → Mirl) : State := { s with mirl := f s.mirl }
def State.onChord (s : State) (f : Chord → Chord) : State := { s with chord := f s.chord }
def State.onMemc (s : State) (f : Memc → Memc) : State := { s with memc := f s.memc }
def State.onOsti (s : State) (f : Osti → Osti) : State := { s with osti := f s.osti }

/-- Apply `f` for each element, in order. -/
def State.each {α : Type} (s : State) (xs : List α) (f : α → State → State) : State := xs.foldl (fun s x => f x s) s

/-- Apply `f` when `p` holds. -/
def State.when (s : State) (p : Bool) (f : State → State) : State := if p then f s else s

/-! ## Free values -/

/-- A fresh free value: its number is used up (log 5). -/
def State.fresh (s : State) : State := { s with free := s.free + 1 }

/-! ## Counters -/

/-- Adding `k` to a 32-bit counter carries out of it (R15). -/
def wraps (w : Word) (k : Nat) : Bool := decide (2 ^ 32 ≤ w.toNat + k)

/-- CNT_OVF bit `n` of a block set when `b` (R15). -/
def State.ovf (s : State) (blk : BlkId) (n : Nat) (b : Bool) : State :=
  s.when b (fun s => s.onHdr blk (fun h => { h with cntOvf := h.cntOvf ||| oneHot 32 n }))

/-- MEMC counter `i` of 0x0030 to 0x0044 (R103). -/
def State.cntMemc (s : State) (i : Nat) (k : Nat := 1) : State :=
  (s.onMemc (fun m => { m with cnt := updN m.cnt i (· + BitVec.ofNat 32 k) })).ovf blkMemc i (wraps (getN s.memc.cnt i 0) k)

/-- OSTI counter `i` of 0x0040 to 0x004C (R103). -/
def State.cntOsti (s : State) (i : Nat) (k : Nat := 1) : State :=
  (s.onOsti (fun m => { m with cnt := updN m.cnt i (· + BitVec.ofNat 32 k) })).ovf blkOsti i (wraps (getN s.osti.cnt i 0) k)

/-- The 32-bit counters of a trunk, 0x0060 to 0x0094 in order (R74). -/
inductive TrkCnt where
  | codeErr | crc16Err | crc32Err | hdrErr | nakSent | dupRec | seqConflict | lateRec | misroute | missing | retxCmd
  | urgent | sentinel | coalesce
deriving DecidableEq, Repr

def TrkCnt.idx : TrkCnt → Nat
  | .codeErr => 0 | .crc16Err => 1 | .crc32Err => 2 | .hdrErr => 3 | .nakSent => 4 | .dupRec => 5 | .seqConflict => 6
  | .lateRec => 7 | .misroute => 8 | .missing => 9 | .retxCmd => 10 | .urgent => 11 | .sentinel => 12 | .coalesce => 13

def State.cntTrk (s : State) (t : TrkId) (c : TrkCnt) (k : Nat := 1) : State :=
  (s.onTrk t (fun m => { m with cnt := updN m.cnt c.idx (· + BitVec.ofNat 32 k) })).ovf (blkTrk t) (2 + c.idx)
    (wraps (getN s.trk[t].cnt c.idx 0) k)

/-- RX_REC and TX_CMD (R74). -/
def State.cntRxRec (s : State) (t : TrkId) : State :=
  (s.onTrk t (fun m => { m with rxRec := m.rxRec + 1 })).ovf (blkTrk t) 0 (s.trk[t].rxRec == BitVec.allOnes 64)
def State.cntTxCmd (s : State) (t : TrkId) : State :=
  (s.onTrk t (fun m => { m with txCmd := m.txCmd + 1 })).ovf (blkTrk t) 1 (s.trk[t].txCmd == BitVec.allOnes 64)

/-- The 32-bit counters of GOV, 0x0060 to 0x0088 in order (R232). -/
inductive GovCnt where
  | poison | format | origin | overflow | state | lockout | clamp | rate | tacet | outDiscard | commitIgn
deriving DecidableEq, Repr

def GovCnt.idx : GovCnt → Nat
  | .poison => 0 | .format => 1 | .origin => 2 | .overflow => 3 | .state => 4 | .lockout => 5 | .clamp => 6 | .rate => 7
  | .tacet => 8 | .outDiscard => 9 | .commitIgn => 10

def State.cntGov (s : State) (c : GovCnt) (k : Nat := 1) : State :=
  (s.onGov (fun m => { m with cnt := updN m.cnt c.idx (· + BitVec.ofNat 32 k) })).ovf blkGov (1 + c.idx)
    (wraps (getN s.gov.cnt c.idx 0) k)

/-- REL_CMD (R232). -/
def State.cntRelCmd (s : State) : State :=
  (s.onGov (fun m => { m with relCmd := m.relCmd + 1 })).ovf blkGov 0 (s.gov.relCmd == BitVec.allOnes 64)

/-- OVERWRITE (R228). -/
def State.cntOverwrite (s : State) : State :=
  (s.onHub (fun m => { m with overwrite := m.overwrite + 1 })).ovf blkFhub 0 (wraps s.hub.overwrite 1)

/-- METR: 0 WARN_CNT, 1 OVERRUN_CNT (R253). -/
def State.cntMetr (s : State) (i : Nat) : State :=
  (s.onMetr (fun m => { m with cnt := updN m.cnt i (· + 1) })).ovf blkMetr i (wraps (getN s.metr.cnt i 0) 1)

/-- CRES: 0 REVOKE_CNT, 1 WAIT_CNT (R253). -/
def State.cntCres (s : State) (i : Nat) : State :=
  (s.onCres (fun m => { m with cnt := updN m.cnt i (· + 1) })).ovf blkCres i (wraps (getN s.cres.cnt i 0) 1)

/-- UNIS: 0 PROBE_CNT, 1 STW_MASK_CNT, 2 REHOME_CNT, 3 REJOIN_REFUSED_CNT (R127). -/
def State.cntUnis (s : State) (i : Nat) (k : Nat := 1) : State :=
  (s.onUnis (fun m => { m with cnt := updN m.cnt i (· + BitVec.ofNat 32 k) })).ovf blkUnis i (wraps (getN s.unis.cnt i 0) k)

/-- CHORD counters from 0x0080 to 0x0094 (R200). -/
inductive ChordCnt where
  | retry | aged | evict | stale | lost | stray
deriving DecidableEq, Repr

def ChordCnt.idx : ChordCnt → Nat
  | .retry => 0 | .aged => 1 | .evict => 2 | .stale => 3 | .lost => 4 | .stray => 5

def State.cntChord (s : State) (c : ChordCnt) : State :=
  (s.onChord (fun m => { m with cnt := updN m.cnt c.idx (· + 1) })).ovf blkChord c.idx (wraps (getN s.chord.cnt c.idx 0) 1)

/-- RSTC: 0 L2_CNT, 1 MERGED_CNT (R293). -/
def State.cntRst (s : State) (i : Nat) : State :=
  (s.onRst (fun m => { m with cnt := updN m.cnt i (· + 1) })).ovf blkRstc i (wraps (getN s.rst.cnt i 0) 1)

/-- HMBX counters: DISCARD_CNT, REPLAY_CNT, BAD_XFER_CNT, RESET_FRAME_CNT, EVT_LOST_CNT (R319). -/
inductive HmbxCnt where
  | discard | replay | badXfer | resetFrame | evtLost
deriving DecidableEq, Repr

def HmbxCnt.idx : HmbxCnt → Nat
  | .discard => 0 | .replay => 1 | .badXfer => 2 | .resetFrame => 3 | .evtLost => 4

def State.cntHmbx (s : State) (c : HmbxCnt) : State :=
  (s.onHmbx (fun m => { m with cnt := updN m.cnt c.idx (· + 1) })).ovf blkHmbx c.idx (wraps (getN s.hmbx.cnt c.idx 0) 1)

/-- MIRL counters: RETX_PKT, CRC_ERR, DUP_PKT, NAK_SENT, VERDICT_DIFF_CNT, SYNC_REQUEUE_CNT (R348). -/
inductive MirlCnt where
  | retx | crcErr | dup | nakSent | verdictDiff | requeue
deriving DecidableEq, Repr

def MirlCnt.idx : MirlCnt → Nat
  | .retx => 0 | .crcErr => 1 | .dup => 2 | .nakSent => 3 | .verdictDiff => 4 | .requeue => 5

def State.cntMirl (s : State) (c : MirlCnt) : State :=
  (s.onMirl (fun m => { m with cnt := updN m.cnt c.idx (· + 1) })).ovf blkMirl (2 + c.idx) (wraps (getN s.mirl.cnt c.idx 0) 1)

/-- TX_PKT and RX_PKT (R348). -/
def State.cntTxPkt (s : State) : State :=
  (s.onMirl (fun m => { m with txPkt := m.txPkt + 1 })).ovf blkMirl 0 (s.mirl.txPkt == BitVec.allOnes 64)
def State.cntRxPkt (s : State) : State :=
  (s.onMirl (fun m => { m with rxPkt := m.rxPkt + 1 })).ovf blkMirl 1 (s.mirl.rxPkt == BitVec.allOnes 64)

/-! ## Accesses of initiators to blocks (R8, R76) -/

/-- An access of an initiator to a block: its counter snapshot there no longer serves it (R8). -/
def State.touchBlk (s : State) (i : Initiator) (b : BlkId) : State :=
  { s with snaps := s.snaps.filter (fun x => !(x.init == i && x.blk == b)) }

/-- A register write of the Steward that is a row of its own: an access to the block as any other (R8). -/
def State.stewWrite (s : State) (b : BlkId) : State := s.touchBlk .steward b

/-- The answer of an access recorded. -/
def State.answer (s : State) (d : Native) (poison error : Bool) : State := { s with ans := ⟨d, poison, error, [], 0⟩ }

/-- Who may read a block: the Steward, the Voices and the mailbox DMA, and in FACTORY and DEVELOP JTAG (R76). -/
def State.mayRead (s : State) (i : Initiator) : Bool :=
  match i with
  | .jtag => s.rst.lc == .factory || s.rst.lc == .develop
  | _ => true

/-! ## Logs that a read pops -/

/-- A log with one more entry; a full log drops it and sets LOST (R102). -/
def PopLog.push (l : PopLog) (cap : Nat) (e : Native) : PopLog :=
  if l.entries.length < cap then { l with entries := l.entries ++ [e] } else { l with lost := true }

/-- The log without its oldest entry. -/
def PopLog.pop (l : PopLog) : PopLog := { l with entries := l.entries.drop 1 }

/-- A 128-bit read of a log: the oldest entry, which it pops (R102). -/
def popAnswer (s : State) (i : Initiator) (b : BlkId) (l : PopLog) (after : State) : State :=
  if s.mayRead i then (after.touchBlk i b).answer (l.entries.head?.getD 0) false false else s.answer 0 false true

/-! ## Cue and ICU of a cluster -/

/-- The level of ICU source `i`, 1 to 16 (ICU_LVL_k of Table 06-1 holds the level - 1). -/
def Core.srcLevel (k : Core) (i : Nat) : Nat := (field (getN k.icuLvl (i / 8) 0) (4 * (i % 8)) 4).toNat + 1

/-- The core with a source made pending. -/
def Core.pend (k : Core) (src : Nat) : Core := { k with icuPend := k.icuPend ||| oneHot 64 src }

/-- Slots that are armed (R158). -/
def Core.armedSlots (k : Core) : Word :=
  (List.range 32).foldl (fun m i => if (getN k.cueSlot i ⟨0, 0, 0, false⟩).armed then m ||| oneHot 32 i else m) 0

/-- The armed slots bound to an event (Table 06-10). -/
def Core.boundSlots (k : Core) (ev : BitVec 3) : Word :=
  (List.range 32).foldl (fun m i =>
    let sl := getN k.cueSlot i ⟨0, 0, 0, false⟩
    if sl.armed && sl.bind == ev then m ||| oneHot 32 i else m) 0

/-- CUE_READY replaced; becoming non-zero sets source 13 (Table 06-10). -/
def Core.setReady (k : Core) (r : Word) : Core :=
  let k' := { k with cueReady := r }
  if k.cueReady = 0 && r != 0 then k'.pend 13 else k'

/-- One post of a set of slots: unarmed slots ignore it, a slot already ready counts CUE_MERGE (R158, Table 06-11). -/
def Core.post (k : Core) (mask : Word) : Core :=
  let m := mask &&& k.armedSlots
  let merged := popCount (m &&& k.cueReady)
  { k with cueReady := k.cueReady ||| m, cueMerge := k.cueMerge + BitVec.ofNat 32 merged }

/-- The Cue updates of one cycle before a CUE_NEXT read: posts, then cancels; a slot posted and cancelled counts
CUE_CANCEL_WON for each post (R159, Table 06-11). -/
def Core.cueCycle (k : Core) (posts : List Word) (cancel : Word) : Core :=
  let armed := k.armedSlots
  -- a post that meets a cancel is absorbed by it and merges with nothing
  let won := (posts.map (fun p => popCount (p &&& armed &&& cancel))).foldl (· + ·) 0
  let k1 := posts.foldl (fun k p => k.post (p &&& ~~~ cancel)) k
  { k1 with cueReady := k1.cueReady &&& ~~~ cancel, cueCancelWon := k1.cueCancelWon + BitVec.ofNat 32 won }

/-- The core after the Cue updates of a cycle, with the CUE_READY source. -/
def Core.cueUpdate (k : Core) (posts : List Word) (cancel : Word) : Core :=
  let k1 := k.cueCycle posts cancel
  if k.cueReady = 0 && k1.cueReady != 0 then k1.pend 13 else k1

/-- The sources that are pending and enabled with a level above both limits (R154, less IE and the freeze). -/
def Core.acceptableAt (k : Core) (cur maskl : Nat) : List Nat :=
  (setBits (k.icuPend &&& k.icuEn)).filter (fun i => cur < k.srcLevel i && maskl < k.srcLevel i)

/-- The acceptable source of the highest level, the lowest number among equals (R154). -/
def Core.bestOf (k : Core) (xs : List Nat) : Option Nat :=
  xs.foldl (fun b i =>
    match b with
    | none => some i
    | some j => if k.srcLevel j < k.srcLevel i then some i else some j) none

/-- The source that would be accepted now (R154). -/
def Core.acceptable (k : Core) : Option Nat :=
  if k.ie && k.curLvl != 17 then k.bestOf (k.acceptableAt k.curLvl.toNat k.maskLvl.toNat) else none

/-! ## Power requests (10, R241, R247) -/

/-- Requester IDs (Table 10-4). -/
def rqTrk (t : TrkId) : Fin 29 := ⟨t.val, by omega⟩
def rqMirl : Fin 29 := 16
def rqVoice (v : Vc) : Fin 29 := ⟨17 + v.val, by omega⟩
def rqStw : Fin 29 := 21
def rqSlice (i : SliceId) : Fin 29 := ⟨22 + i.val, by omega⟩
def rqXspi : Fin 29 := 26
def rqOsti : Fin 29 := 27
def rqBist : Fin 29 := 28

/-- The requester of a cluster. -/
def rqCl (c : Cl) : Fin 29 := ⟨17 + c.val, by omega⟩

/-- The power state of a requester's block. -/
def State.powerOf (s : State) (r : Fin 29) : PowerState := s.cres.power[r]

/-- A requester's block put into a power state. -/
def State.setPower (s : State) (r : Fin 29) (p : PowerState) : State :=
  s.onCres (fun c => { c with power := upd c.power r (fun _ => p) })

/-- The requester holds a grant that it has not released. -/
def State.holds (s : State) (r : Fin 29) : Bool := s.cres.grants.contains r && !s.cres.released.contains r

/-- A request for a grant, unless one is held or waits already; one made after a release is a new request (R247). -/
def State.askGrant (s : State) (r : Fin 29) : State :=
  if s.holds r || s.cres.waiting.any (fun w => w.id == r) then s
  else s.onCres (fun c => { c with waiting := c.waiting ++ [⟨r, s.metr.lineTime, false⟩] })

/-- The block releases its grant, applied at the next arbitration (R247); a waiting request is withdrawn. -/
def State.dropGrant (s : State) (r : Fin 29) : State :=
  s.onCres (fun c => { c with
    waiting := c.waiting.filter (fun w => w.id != r)
    released := if c.grants.contains r && !c.released.contains r then c.released ++ [r] else c.released })

/-- A cluster in RETAIN asks to wake when a Cue slot is ready or a source is acceptable (R242). -/
def State.wakeCheck (s : State) (c : Cl) : State :=
  let k := s.core[c]
  if s.powerOf (rqCl c) = .retain && (k.cueReady != 0 || k.acceptable.isSome) then s.askGrant (rqCl c) else s

/-- An event for a cluster: its ICU source becomes pending and the slots bound to its Cue event are posted (Table 06-10). -/
def State.postEvent (s : State) (c : Cl) (src : Nat) (ev : BitVec 3) : State :=
  (s.onCore c (fun k => (k.pend src).cueUpdate [k.boundSlots ev] 0)).wakeCheck c

/-! ## Events and the Steward's interrupts -/

/-- The Steward's ICU source of a block: 16 + its BLK_ID CODE (Table 06-10). -/
def State.stewIrq (s : State) (b : BlkId) : State := (s.onCore stw (fun k => k.pend (16 + b.val))).wakeCheck stw

/-- GOV_EVENT bits (Table 09-9). -/
inductive GovEv where | fermata | zoneTrip | blocked | classFailed
deriving DecidableEq, Repr
def GovEv.idx : GovEv → Nat | .fermata => 0 | .zoneTrip => 1 | .blocked => 2 | .classFailed => 3

def State.evGov (s : State) (e : GovEv) : State :=
  (s.onGov (fun g => { g with event := g.event ||| oneHot 4 e.idx })).when (s.gov.irqEn.getLsbD e.idx) (·.stewIrq blkGov)

/-- UNIS_EVENT bits (Table 05-7). -/
inductive UnisEv where
  | voiceOut (v : Vc) | split | rail | probeFail | stwVote | stwResync | planApplied | stretch | shed
deriving DecidableEq, Repr
def UnisEv.idx : UnisEv → Nat
  | .voiceOut v => v.val | .split => 4 | .rail => 5 | .probeFail => 6 | .stwVote => 7 | .stwResync => 8 | .planApplied => 9
  | .stretch => 10 | .shed => 11

def State.evUnis (s : State) (e : UnisEv) : State :=
  (s.onUnis (fun g => { g with event := g.event ||| oneHot 12 e.idx })).when (s.unis.irqEn.getLsbD e.idx) (·.stewIrq blkUnis)

/-- TRK_EVENT bits (Table 03-11). -/
inductive TrkEv where
  | linkDown | discMismatch | discFail | sentinel | urgent | seqConflict | concLost | misroute | coalesced | engineFault
deriving DecidableEq, Repr
def TrkEv.idx : TrkEv → Nat
  | .linkDown => 0 | .discMismatch => 1 | .discFail => 2 | .sentinel => 3 | .urgent => 4 | .seqConflict => 5
  | .concLost => 6 | .misroute => 7 | .coalesced => 8 | .engineFault => 9

def State.evTrk (s : State) (t : TrkId) (e : TrkEv) : State :=
  (s.onTrk t (fun g => { g with event := g.event ||| oneHot 10 e.idx })).when (s.trk[t].irqEn.getLsbD e.idx)
    (·.stewIrq (blkTrk t))

/-- CHORD_EVENT bits (Table 08-8). -/
inductive ChordEv where
  | track | degrade | slice | proto | stray | lost | resetRefused | reclaimDone
deriving DecidableEq, Repr
def ChordEv.idx : ChordEv → Nat
  | .track => 0 | .degrade => 1 | .slice => 2 | .proto => 3 | .stray => 4 | .lost => 5 | .resetRefused => 6 | .reclaimDone => 7

def State.evChord (s : State) (e : ChordEv) : State :=
  (s.onChord (fun g => { g with event := g.event ||| oneHot 8 e.idx })).when (s.chord.irqEn.getLsbD e.idx) (·.stewIrq blkChord)

/-- CRES_EVENT bits (Table 10-8); the block has no interrupt enable. -/
inductive CresEv where | seasonChange | revoked | budgetClipped
deriving DecidableEq, Repr
def CresEv.idx : CresEv → Nat | .seasonChange => 0 | .revoked => 1 | .budgetClipped => 2

def State.evCres (s : State) (e : CresEv) : State :=
  s.onCres (fun c => { c with event := c.event ||| oneHot 3 e.idx })

/-- MIRL_EVENT bits (Table 13-5). -/
def State.evMirl (s : State) (i : Nat) : State :=
  (s.onMirl (fun g => { g with event := g.event ||| oneHot 8 i })).when (s.mirl.irqEn.getLsbD i) (·.stewIrq blkMirl)

/-! ## Faults -/

/-- Whether a source is counted and escalated per instance (Table 09-7). -/
def perInstance : FaultSource → Bool
  | .frameOverrun | .lockstep | .unisonSplit | .unisonRail | .unisonProbe | .voiceWdog | .corePoison
  | .cohTrack | .cohDegrade | .cohSlice | .cohProto | .cohStray | .cohLost | .cohAged
  | .trkLinkDown | .trkLinkLost | .discFail | .discMismatch | .concLost | .seqConflict | .misroute | .sentinelTrip
  | .trkEngine => true
  | _ => false

/-- A fault is detected: its report is on its way to the Fault Hub, which applies it at FAULT_REPORT (R223). -/
def State.detect (s : State) (src : FaultSource) (inst : Nat) (detail : Word) : State :=
  s.onHub (fun h => { h with pending := h.pending ++ [⟨src, BitVec.ofNat 4 inst, detail⟩] })

/-! ## Time -/

/-- Cycles of the 600 MHz core clock in a tick of LINE_TIME (R235). -/
def cyclesPerTick : Nat := 25

/-- A core whose clock runs: out of reset, powered, not in WAIT (Table 06-1 CYCLE; log 10). -/
def State.clocked (s : State) (c : Cl) : Bool :=
  !s.core[c].inReset && !s.core[c].waiting && (s.powerOf (rqCl c) == .run)

/-- `n` ticks pass: LINE_TIME counts (R235) and CYCLE of every clocked core counts. -/
def State.elapse (s : State) (n : Nat) : State :=
  let s1 := s.onMetr (fun m => { m with lineTime := m.lineTime + BitVec.ofNat 64 n })
  s1.each clusters (fun c t => t.when (s.clocked c)
    (fun t => t.onCore c (fun k => { k with cycle := k.cycle + BitVec.ofNat 64 (n * cyclesPerTick) })))

/-- Time passes up to an instant; an instant already past changes nothing. -/
def State.elapseTo (s : State) (t : Time) : State := s.elapse (t.toNat - s.metr.lineTime.toNat)

/-- Milliseconds and microseconds as ticks. -/
def ms (n : Nat) : Time := BitVec.ofNat 64 (n * Config.ticksPerMs)
def us (n : Nat) : Time := BitVec.ofNat 64 (n * Config.ticksPerUs)

/-- A sweep setting's period in ms (03, Table 03-1 SWEEP). -/
def periodMs (sel : BitVec 2) : Nat := 5 * 2 ^ sel.toNat

/-- A sweep setting's period in ticks. -/
def period (sel : BitVec 2) : Time := ms (periodMs sel)

end Sys2Proof.Machine
end

