-- ==== Sys2Proof/Machine/Memory.lean ====
section
/-!
DEFINITION. The addressed memories: sorted lists of stored words, canonical addresses (R78, R89), reads and writes with the
word code's accounting (R91, R92, R102), the read-modify-write of narrow stores and aliases (R84 to R86), injection (R104) and
Ostinato's redirection (R98, R99).
-/
namespace Sys2Proof.Machine

/-! ## Sorted lists of cells -/

/-- The cell of a word index, or the default of an unlisted word. -/
def lookupCell (d : Cell) (i : Nat) : List (Nat × Cell) → Cell
  | [] => d
  | (j, c) :: xs => if i = j then c else lookupCell d i xs

/-- The list without index `i`. -/
def dropCell (i : Nat) (xs : List (Nat × Cell)) : List (Nat × Cell) := xs.filter (fun p => p.1 != i)

/-- A cell put in its place in a rising list that does not hold its index. -/
def insertCell (i : Nat) (c : Cell) : List (Nat × Cell) → List (Nat × Cell)
  | [] => [(i, c)]
  | (j, e) :: xs => if i < j then (i, c) :: (j, e) :: xs else (j, e) :: insertCell i c xs

/-- The list with cell `i` replaced; the default value is not listed. -/
def putCell (d : Cell) (i : Nat) (c : Cell) (xs : List (Nat × Cell)) : List (Nat × Cell) :=
  if c = d then dropCell i xs else insertCell i c (dropCell i xs)

/-- Indices strictly rising. -/
def rising : List (Nat × Cell) → Bool
  | [] => true
  | [_] => true
  | a :: b :: xs => decide (a.1 < b.1) && rising (b :: xs)

/-- The canonical form of a memory with a default cell: rising, and no entry equal to the default. -/
def Ram.wf (d : Cell) (r : Ram) : Bool := rising r.cells && r.cells.all (fun p => p.2 != d)

def Ram.get (d : Cell) (r : Ram) (i : Nat) : Cell := lookupCell d i r.cells
def Ram.put (d : Cell) (r : Ram) (i : Nat) (c : Cell) : Ram := ⟨putCell d i c r.cells⟩

/-- The zero word with valid check bits (R88, R282). -/
def zeroCell : Cell := ⟨0, 0⟩

/-- The MISSING word: all-zero content, stored poisoned (R57). -/
def missingCell : Cell := ⟨0, 0x1FF⟩

/-! ## Places -/

/-- The memories that hold addressed words (Table 04-1). -/
inductive MemName where
  | itcm (c : Cl) | dtcm (c : Cl) | chord | score (f : Fin 2) | verdict | rom | xip
deriving DecidableEq, Repr

/-- A native word of a memory, by its index. -/
structure Loc where
  mem : MemName
  idx : Nat
deriving DecidableEq, Repr

/-- Canonical base address (Table 04-1). -/
def MemName.base : MemName → Nat
  | .itcm c => if c.val = 4 then 0x01000000 else 0x08000000 + c.val * 0x00100000
  | .dtcm c => if c.val = 4 then 0x01020000 else 0x08040000 + c.val * 0x00100000
  | .chord => 0x10000000
  | .score f => 0x20000000 + f.val * 0x00200000
  | .verdict => 0x24000000
  | .rom => 0
  | .xip => 0x60000000

/-- Size of a TCM in bytes (Table 04-2). -/
def tcmBytes (c : Cl) : Nat := if c.val = 4 then 0x20000 else 0x40000

/-- The slice of a Chord word: address bits [7:6] (R177). -/
def chordSliceOf (idx : Nat) : Nat := idx / 4 % 4

/-- MEM code of Table 04-8. -/
def Loc.code (l : Loc) : Byte :=
  match l.mem with
  | .rom => 0x00
  | .itcm c => if c.val = 4 then 0x01 else BitVec.ofNat 8 (0x10 + 4 * c.val)
  | .dtcm c => if c.val = 4 then 0x02 else BitVec.ofNat 8 (0x11 + 4 * c.val)
  | .chord => BitVec.ofNat 8 (0x20 + chordSliceOf l.idx)
  | .score _ => 0x30
  | .verdict => 0x31
  | .xip => 0x54

/-- Canonical byte address of the word. -/
def Loc.addr (l : Loc) : Nat := l.mem.base + 16 * l.idx

/-- a[23:0] of the word (R89). -/
def Loc.a24 (l : Loc) : BitVec 24 := BitVec.ofNat 24 (l.addr / 16)

/-- What an unlisted word of a memory holds. -/
def State.dflt (s : State) (m : MemName) : Cell :=
  match m with
  | .score f => if s.mem.scoreFilled[f] then missingCell else zeroCell
  | _ => zeroCell

/-- Bytes of the flash from an offset in a slot; past the programmed bytes it is erased (log 4). -/
def flashByte (s : State) (off : Nat) : Byte :=
  if off < 0x01000000 then s.mem.flashA[off]?.getD 0xFF else s.mem.flashB[off - 0x01000000]?.getD 0xFF

/-- The stored word of an array, the redirection aside. -/
def State.arrayCell (s : State) (l : Loc) : Cell :=
  match l.mem with
  | .itcm c => s.mem.itcm[c].get zeroCell l.idx
  | .dtcm c => s.mem.dtcm[c].get zeroCell l.idx
  | .chord => s.mem.chord.get zeroCell l.idx
  | .score f => s.mem.score[f].get (s.dflt l.mem) l.idx
  | .verdict => s.mem.verdict.get zeroCell l.idx
  | .rom => ⟨Config.romWord l.idx, 0⟩
  | .xip => ⟨ofBytes 128 ((List.range 16).map (fun i => flashByte s (16 * l.idx + i))), 0⟩

/-- The array with a word replaced; the Boot ROM and the flash are not written this way. -/
def State.setArrayCell (s : State) (l : Loc) (c : Cell) : State :=
  let m := s.mem
  match l.mem with
  | .itcm k => { s with mem := { m with itcm := upd m.itcm k (fun r => r.put zeroCell l.idx c) } }
  | .dtcm k => { s with mem := { m with dtcm := upd m.dtcm k (fun r => r.put zeroCell l.idx c) } }
  | .chord => { s with mem := { m with chord := m.chord.put zeroCell l.idx c } }
  | .score f => { s with mem := { m with score := upd m.score f (fun r => r.put (s.dflt l.mem) l.idx c) } }
  | .verdict => { s with mem := { m with verdict := m.verdict.put zeroCell l.idx c } }
  | .rom | .xip => s

/-! ## Ostinato's regions (04, "Ostinato") -/

/-- First regions of the memories, in the order of 04: Steward TCMs, Voice TCMs, L1 caches, Chord slices with their trackers,
Score, Verdict, block buffers and logs. -/
def regionL1 : Nat := 2304
def regionChord (i : Nat) : Nat := 2624 + 2068 * i
def regionScore : Nat := 10896
def regionVerdict : Nat := 14992
def regionBuf : Nat := 15504
def regionCount : Nat := 16080

/-- The region of a word and its place in it; none for memories Ostinato does not cover. -/
def Loc.region (l : Loc) : Option (Nat × Nat) :=
  match l.mem with
  | .itcm c => some ((if c.val = 4 then 0 else 256 + 512 * c.val) + l.idx / 64, l.idx % 64)
  | .dtcm c => some ((if c.val = 4 then 128 else 512 + 512 * c.val) + l.idx / 64, l.idx % 64)
  | .chord =>
    let a := l.idx / 16 * 4 + l.idx % 4
    some (regionChord (chordSliceOf l.idx) + a / 64, a % 64)
  | .score f => some (regionScore + 2048 * f.val + l.idx / 64, l.idx % 64)
  | .verdict => some (regionVerdict + l.idx / 64, l.idx % 64)
  | .rom | .xip => none

/-- What a region holds: addressed words from a first one, or an array outside the map. -/
inductive RegionKind where
  | words (m : MemName) (first : Nat)
  | chordWords (slice : SliceId) (first : Nat)
  | array (mem : Byte) (first : Nat)
  | tracker (slice : SliceId) (mirror : Bool) (first : Nat)
  | buffer (n : Nat)
deriving DecidableEq, Repr

/-- The contents of a region, from its number. -/
def regionKind (r : Nat) : RegionKind :=
  if r < 128 then .words (.itcm stw) (64 * r)
  else if r < 256 then .words (.dtcm stw) (64 * (r - 128))
  else if r < regionL1 then
    let q := r - 256
    let c : Cl := vcl ⟨q / 512 % 4, by omega⟩
    if q % 512 < 256 then .words (.itcm c) (64 * (q % 512)) else .words (.dtcm c) (64 * (q % 512 - 256))
  else if r < regionChord 0 then
    let q := r - regionL1
    -- the Steward's L1I and L1D, then those of VOICE_0 to VOICE_3 (log 11)
    let base := if q / 64 = 0 then 0x03 else 0x12 + 4 * (q / 64 - 1)
    .array (BitVec.ofNat 8 (base + q / 32 % 2)) (64 * (q % 32))
  else if r < regionScore then
    let q := r - regionChord 0
    let sl : SliceId := ⟨q / 2068 % 4, by omega⟩
    let k := q % 2068
    if k < 2048 then .chordWords sl (64 * k)
    else if k < 2060 then .tracker sl true (64 * (k - 2048)) else .tracker sl false (64 * (k - 2060))
  else if r < regionVerdict then
    .words (.score ⟨(r - regionScore) / 2048 % 2, by omega⟩) (64 * ((r - regionScore) % 2048))
  else if r < regionBuf then .words .verdict (64 * (r - regionVerdict))
  else .buffer (r - regionBuf)

/-- The word at a place of a region, if the map has it. -/
def regionLoc (r i : Nat) : Option Loc :=
  match regionKind r with
  | .words m first => some ⟨m, first + i⟩
  | .chordWords sl first =>
    let a := first + i
    some ⟨.chord, a / 4 * 16 + 4 * sl.val + a % 4⟩
  | _ => none

/-- The stored word as a reader or writer meets it: from the save buffer while its region is saved (R99). -/
def State.cell (s : State) (l : Loc) : Cell :=
  match s.osti.save, l.region with
  | some buf, some (r, i) => if r = s.osti.region.toNat then getN buf i (s.arrayCell l) else s.arrayCell l
  | _, _ => s.arrayCell l

/-- The stored word replaced: in the save buffer while its region is saved (R99). -/
def State.setCell (s : State) (l : Loc) (c : Cell) : State :=
  match s.osti.save, l.region with
  | some buf, some (r, i) =>
    if r = s.osti.region.toNat then { s with osti := { s.osti with save := some (updN buf i (fun _ => c)) } }
    else s.setArrayCell l c
  | _, _ => s.setArrayCell l c

/-! ## Logs and accounting (R91, R92, R102) -/

/-- INITIATOR codes of Table 04-8. -/
inductive Init where
  | voice (v : Vc) | steward | mirror | mbox | xspi | gov | trunk | ostinato | fill | other
deriving DecidableEq, Repr

def Init.code : Init → BitVec 4
  | .voice v => BitVec.ofNat 4 v.val | .steward => 4 | .mirror => 5 | .mbox => 6 | .xspi => 7 | .gov => 8 | .trunk => 9
  | .ostinato => 10 | .fill => 11 | .other => 15

/-- The initiator code of a cluster. -/
def initOf (c : Cl) : Init := match voiceOf c with | some v => .voice v | none => .steward

/-- A log entry (Table 04-8). -/
def memLogEntry (s : State) (a : BitVec 24) (mem : Byte) (syn : BitVec 9) (kind : BitVec 3) (i : BitVec 4) : Native :=
  place 128 0 a ||| place 128 24 mem ||| place 128 32 syn ||| place 128 41 kind ||| place 128 44 i |||
    place 128 64 s.metr.lineTime

/-- An entry offered to the CE log: added only if memory and address differ from every entry held (R102). -/
def State.offerCe (s : State) (e : Native) : State :=
  if s.memc.ceLog.entries.any (fun x => field x 0 32 == field e 0 32) then s
  else s.onMemc (fun m => { m with ceLog := m.ceLog.push 8 e })

/-- An entry added to the UE log (R102). -/
def State.addUe (s : State) (e : Native) : State := s.onMemc (fun m => { m with ueLog := m.ueLog.push 8 e })

/-- The accounting of a read that met a syndrome, at a word with MEM code and address (Table 04-6, Table 04-9). -/
def State.account (s : State) (mem : Byte) (a : BitVec 24) (addr : Nat) (syn : BitVec 9) (i : Init) : State :=
  let entry := fun kind => memLogEntry s a mem syn kind i.code
  match decodeSyndrome syn with
  | .clean => s
  | .dataBit _ => ((s.cntMemc 0).offerCe (entry 0)).detect .memCe 0 (BitVec.ofNat 32 addr)
  | .checkBit => ((s.cntMemc 0).offerCe (entry 1)).detect .memCe 0 (BitVec.ofNat 32 addr)
  | .address => ((s.cntMemc 2).addUe (entry 2)).detect .memAddr 0 (BitVec.ofNat 32 addr)
  | .poisoned => s.cntMemc 3
  | .uncorrectable => ((s.cntMemc 1).addUe (entry 3)).detect .memUe 0 (BitVec.ofNat 32 addr)

/-- What a read of a word delivers. -/
def State.peekWord (s : State) (l : Loc) : Native × Bool := (s.cell l).deliver

/-- The state after a read of a word by an initiator: counted and logged, never repaired (R91, R92). -/
def State.noteRead (s : State) (l : Loc) (i : Init) : State := s.account l.code l.a24 l.addr (s.cell l).syn i

/-- The bits an armed injection flips in a word being stored (R104, Table 04-11). INJ_KIND 0 and 5 to 7 and ABIT 24 to 31, to
which the table gives no meaning, flip nothing, and the write still ends the injection (DESIGN CHOICE, log 78). -/
def injected (m : Memc) (c : Cell) : Cell :=
  let b := m.injBit.toNat
  let b2 := (b + 1) % 128
  match m.injKind.toNat with
  | 1 => ⟨c.data ^^^ oneHot 128 b, c.syn ^^^ dataColumn b⟩
  | 2 => ⟨c.data ^^^ oneHot 128 b ^^^ oneHot 128 b2, c.syn ^^^ dataColumn b ^^^ dataColumn b2⟩
  | 3 => ⟨c.data, if m.injAbit.toNat < 24 then c.syn ^^^ addrColumn m.injAbit.toNat else c.syn⟩
  | 4 => ⟨c.data, c.syn ^^^ 0x1FF⟩
  | _ => c

/-- A whole word stored, clean or poisoned (R86, R90), through an armed injection (R104). -/
def State.storeWord (s : State) (l : Loc) (data : Native) (poison : Bool) : State :=
  let c := Cell.store data poison
  if s.memc.injGo && l.addr / 16 == s.memc.injAddr.toNat then
    (s.setCell l (injected s.memc c)).onMemc (fun m => { m with injGo := false })
  else s.setCell l c

/-- How a store changes the bytes it names. -/
inductive StoreKind where
  | write | setBits | clearBits
deriving DecidableEq, Repr

/-- `n` bytes of data placed from byte `off` of a word, and the mask of those bytes. -/
def byteMask (off n : Nat) : Native := (BitVec.ofNat 128 (2 ^ (8 * n) - 1)) <<< (8 * off)

/-- A word merged with the part of a store that falls on it. -/
def mergeStore (k : StoreKind) (old part mask : Native) : Native :=
  match k with
  | .write => (old &&& ~~~ mask) ||| (part &&& mask)
  | .setBits => old ||| (part &&& mask)
  | .clearBits => old &&& ~~~ (part &&& mask)

/-- A store's part on one word: the word, the data in place, the bytes it names, and whether the word is read first. -/
structure StorePart where
  loc : Loc
  part : Native
  mask : Native
deriving DecidableEq, Repr

/-- The part of a store needs a read: it names less than the whole word, or it is an alias update (R84, R85). -/
def StorePart.rmw (k : StoreKind) (p : StorePart) : Bool := k != .write || p.mask != BitVec.allOnes 128

/-- A store of one or two parts (R84 to R86). A read-modify-write that finds its word uncorrectable or poisoned leaves every
word unchanged and ends in an error; MEMC logs the word. -/
def State.storeParts (s : State) (k : StoreKind) (ps : List StorePart) (poison : Bool) (i : Init) : State × Bool :=
  let s1 := s.each (ps.filter (StorePart.rmw k)) (fun p t =>
    let t1 := t.noteRead p.loc i
    let c := t.cell p.loc
    -- R85: a poisoned word is logged too (log 12)
    if decodeSyndrome c.syn = .poisoned then t1.addUe (memLogEntry t1 p.loc.a24 p.loc.code c.syn 3 i.code) else t1)
  if (ps.filter (StorePart.rmw k)).any (fun p => (s.peekWord p.loc).2) then (s1, true)
  else
    (s1.each ps (fun p t =>
      let old := if StorePart.rmw k p then (t.peekWord p.loc).1 else 0
      t.storeWord p.loc (mergeStore k old p.part p.mask) poison), false)

/-- The parts of an access of `n` bytes at byte offset `off` of a memory: one word, or two where it crosses a word boundary. -/
def storeParts (m : MemName) (off n : Nat) (data : Native) : List StorePart :=
  let b := off % 16
  let w := off / 16
  let keep := data &&& byteMask 0 n
  if b + n ≤ 16 then [⟨⟨m, w⟩, keep <<< (8 * b), byteMask b n⟩]
  else
    let lo := 16 - b
    [⟨⟨m, w⟩, keep <<< (8 * b), byteMask b lo⟩, ⟨⟨m, w + 1⟩, keep >>> (8 * lo), byteMask 0 (n - lo)⟩]

/-- The words an access of `n` bytes touches. -/
def touched (m : MemName) (off n : Nat) : List Loc :=
  if off % 16 + n ≤ 16 then [⟨m, off / 16⟩] else [⟨m, off / 16⟩, ⟨m, off / 16 + 1⟩]

/-- A load of `n` bytes at byte offset `off`: value, and poison when any word it reads delivers poison (R94). -/
def State.peekBytes (s : State) (m : MemName) (off n : Nat) : Native × Bool :=
  let b := off % 16
  let w0 := s.peekWord ⟨m, off / 16⟩
  if b + n ≤ 16 then ((w0.1 >>> (8 * b)) &&& byteMask 0 n, w0.2)
  else
    let w1 := s.peekWord ⟨m, off / 16 + 1⟩
    (((w0.1 >>> (8 * b)) ||| (w1.1 <<< (8 * (16 - b)))) &&& byteMask 0 n, w0.2 || w1.2)

/-- The accounting of that load. -/
def State.noteBytes (s : State) (m : MemName) (off n : Nat) (i : Init) : State :=
  s.each (touched m off n) (fun l t => t.noteRead l i)

/-- One byte of a memory as it is stored (its data bits, poison aside): the model's read of one byte. -/
def State.byteAt (s : State) (m : MemName) (off : Nat) : Byte :=
  ((s.cell ⟨m, off / 16⟩).data >>> (8 * (off % 16))).setWidth 8

/-! ## Zero fills (R88, R282) -/

/-- The word of a canonical address, if an array of the map holds it (Table 04-1). -/
def locAt (a : Nat) : Option Loc :=
  (([.itcm 0, .itcm 1, .itcm 2, .itcm 3, .itcm 4, .dtcm 0, .dtcm 1, .dtcm 2, .dtcm 3, .dtcm 4, .chord, .score 0, .score 1,
      .verdict] : List MemName).find? (fun m =>
    let size := match m with
      | .itcm c | .dtcm c => tcmBytes c
      | .chord => 0x00800000
      | .score _ => 0x00200000
      | _ => 0x00080000
    decide (m.base ≤ a) && decide (a < m.base + size))).map (fun m => ⟨m, (a - m.base) / 16⟩)

/-- The save buffer's copies of the words a fill covers are filled with them (R99). -/
def State.zeroSave (s : State) (inside : Loc → Bool) : State :=
  { s with osti := { s.osti with save := s.osti.save.map (fun buf => Vector.ofFn (fun i : Fin 64 =>
      match regionLoc s.osti.region.toNat i.val with
      | some l => if inside l then zeroCell else buf[i]
      | none => buf[i])) } }

/-- An injection armed at a word that a zero fill writes strikes there (R104). -/
def State.fillInject (s : State) (inside : Loc → Bool) : State :=
  match locAt (16 * s.memc.injAddr.toNat) with
  | some l => s.when (s.memc.injGo && inside l) (·.storeWord l 0 false)
  | none => s

/-- A zero fill's last parts: the save buffer and an armed injection. -/
def State.filled (s : State) (inside : Loc → Bool) : State := (s.zeroSave inside).fillInject inside

/-- A cluster's TCMs zero-filled. -/
def State.zeroTcm (s : State) (c : Cl) : State :=
  State.filled { s with mem := { s.mem with itcm := upd s.mem.itcm c (fun _ => .empty), dtcm := upd s.mem.dtcm c (fun _ => .empty) } }
    (fun l => l.mem == .itcm c || l.mem == .dtcm c)

/-- A Chord slice's data array zero-filled. -/
def State.zeroSlice (s : State) (i : SliceId) : State :=
  State.filled { s with mem := { s.mem with chord := ⟨s.mem.chord.cells.filter (fun p => chordSliceOf p.1 != i.val)⟩ } }
    (fun l => l.mem == .chord && chordSliceOf l.idx == i.val)

/-- Every memory zero-filled. -/
def State.zeroAll (s : State) : State :=
  State.filled { s with mem := { s.mem with
      itcm := Vector.replicate 5 .empty, dtcm := Vector.replicate 5 .empty, chord := .empty
      score := Vector.replicate 2 .empty, scoreFilled := Vector.replicate 2 false, verdict := .empty } } (fun _ => true)

/-- The canonical form of every memory. -/
def State.memWf (s : State) : Bool :=
  clusters.all (fun c => s.mem.itcm[c].wf zeroCell && s.mem.dtcm[c].wf zeroCell) && s.mem.chord.wf zeroCell &&
    s.mem.score[0].wf (s.dflt (.score 0)) && s.mem.score[1].wf (s.dflt (.score 1)) && s.mem.verdict.wf zeroCell

end Sys2Proof.Machine
end

