-- ==== Sys2Proof/Machine/Operands.lean ====
section
/-!
DEFINITION. Operand forms of the core: scalar and lane registers with their poison tags (R128, R129), lane results in flight
(R136), immediates, and the encodings of instruction words (R131, Tables 06-2 and 06-3).
-/
namespace Sys2Proof.Machine

/-! ## Registers -/

/-- A scalar register with its tag; g0 reads as zero without a tag (R128). -/
def Core.readG (k : Core) (r : RegF) : Word × Bool :=
  if r = 0 then (0, false) else (getN k.g r.toNat 0, k.gTag.getLsbD r.toNat)

/-- A scalar register written with its tag; g0 ignores writes (R128, R129). -/
def Core.writeG (k : Core) (r : RegF) (v : Word) (tag : Bool) : Core :=
  if r = 0 then k else { k with g := updN k.g r.toNat (fun _ => v), gTag := putBit k.gTag r.toNat tag }

/-- A lane register written with its tag. -/
def Core.putV (k : Core) (r : Nat) (v : Native) (tag : Bool) : Core :=
  { k with v := updN k.v r (fun _ => v), vTag := putBit k.vTag r tag }

/-- The number of a v register field whose bit 4 is clear (R131). -/
def vreg (r : RegF) : Fin 16 := ⟨r.toNat % 16, by omega⟩

/-- A lane result that its instruction makes readable L instructions later (R136). -/
def Core.writeV (k : Core) (r : RegF) (v : Native) (tag : Bool) (lat : Nat) : Core :=
  { k with lane := k.lane ++ [⟨vreg r, v, tag, max lat 1⟩] }

/-- A lane register as an instruction reads it: inside the shadow of its producers, the old value or the result of any of them that
has landed (R136, R138; log 6). -/
def State.readV (s : State) (c : Cl) (r : RegF) : Native × Bool :=
  let k := s.core[c]
  let i := (vreg r).val
  ((k.lane.filter (fun p => p.reg.val == i)).zipIdx).foldl
    (fun old p => if Config.laneShadow (64 * s.free + p.2) then (p.1.val, p.1.tag) else old) (getN k.v i 0, k.vTag.getLsbD i)

/-- The lane results after one more instruction has issued: those whose latency has passed are written, in program order. -/
def Core.ageLane (k : Core) : Core :=
  let aged := k.lane.map (fun p => { p with left := p.left - 1 })
  let k1 := { k with lane := aged.filter (fun p => p.left != 0) }
  (aged.filter (fun p => p.left == 0)).foldl (fun k p => k.putV p.reg.val p.val p.tag) k1

/-- Every lane result written: entry drains the reorder buffer (06, Edge cases). -/
def Core.drainLane (k : Core) : Core :=
  k.lane.foldl (fun k p => k.putV p.reg.val p.val p.tag) { k with lane := [] }

/-! ## Instruction words (Table 06-2) -/

def encR (op : Nat) (rd rs1 rs2 : RegF) (func : BitVec 11) : Word :=
  BitVec.ofNat 6 op ++ rd ++ rs1 ++ rs2 ++ func

def encI (op : Nat) (rd rs1 : RegF) (imm : BitVec 16) : Word := BitVec.ofNat 6 op ++ rd ++ rs1 ++ imm

def encJ (op : Nat) (off : BitVec 26) : Word := BitVec.ofNat 6 op ++ off

def encX (gd va : RegF) (pos : BitVec 7) (wm1 : BitVec 5) (sx : Bool) (zero : BitVec 3) : Word :=
  BitVec.ofNat 6 0x31 ++ gd ++ va ++ pos ++ wm1 ++ bit sx ++ zero

/-- The FUNC field of a lane instruction: its operation in [4:0], its immediate in [10:5]. -/
def laneFunc (op : Nat) (imm : Nat) : BitVec 11 := BitVec.ofNat 6 imm ++ BitVec.ofNat 5 op

/-- The word of an instruction command, as the tables encode it; none for commands that are no instruction. -/
def insnWord : Instr → Option Word
  | .add _ rd a b => some (encR 0x00 rd a b 0)
  | .sub _ rd a b => some (encR 0x00 rd a b 1)
  | .and _ rd a b => some (encR 0x00 rd a b 2)
  | .or _ rd a b => some (encR 0x00 rd a b 3)
  | .xor _ rd a b => some (encR 0x00 rd a b 4)
  | .sll _ rd a b => some (encR 0x00 rd a b 5)
  | .srl _ rd a b => some (encR 0x00 rd a b 6)
  | .sra _ rd a b => some (encR 0x00 rd a b 7)
  | .slt _ rd a b => some (encR 0x00 rd a b 8)
  | .sltu _ rd a b => some (encR 0x00 rd a b 9)
  | .addi _ rd a i => some (encI 0x01 rd a i)
  | .andi _ rd a i => some (encI 0x02 rd a i)
  | .ori _ rd a i => some (encI 0x03 rd a i)
  | .xori _ rd a i => some (encI 0x04 rd a i)
  | .slti _ rd a i => some (encI 0x05 rd a i)
  | .lhi _ rd a i => some (encI 0x06 rd a i)
  | .slli _ rd a sh => some (encI 0x07 rd a ((0 : BitVec 11) ++ sh))
  | .srli _ rd a sh => some (encI 0x07 rd a ((1 : BitVec 11) ++ sh))
  | .srai _ rd a sh => some (encI 0x07 rd a ((2 : BitVec 11) ++ sh))
  | .mul _ rd a b => some (encR 0x08 rd a b 0)
  | .mulh _ rd a b => some (encR 0x08 rd a b 1)
  | .mulhu _ rd a b => some (encR 0x08 rd a b 2)
  | .div _ rd a b => some (encR 0x08 rd a b 4)
  | .divu _ rd a b => some (encR 0x08 rd a b 5)
  | .rem _ rd a b => some (encR 0x08 rd a b 6)
  | .remu _ rd a b => some (encR 0x08 rd a b 7)
  | .lb _ rd a i => some (encI 0x10 rd a i)
  | .lh _ rd a i => some (encI 0x11 rd a i)
  | .lw _ rd a i => some (encI 0x12 rd a i)
  | .lbu _ rd a i => some (encI 0x13 rd a i)
  | .lhu _ rd a i => some (encI 0x14 rd a i)
  | .sb _ rs2 a i => some (encI 0x18 rs2 a i)
  | .sh _ rs2 a i => some (encI 0x19 rs2 a i)
  | .sw _ rs2 a i => some (encI 0x1A rs2 a i)
  | .atswp _ rd a b => some (encR 0x1C rd a b 0)
  | .atadd _ rd a b => some (encR 0x1C rd a b 1)
  | .atand _ rd a b => some (encR 0x1C rd a b 2)
  | .ator _ rd a b => some (encR 0x1C rd a b 3)
  | .atxor _ rd a b => some (encR 0x1C rd a b 4)
  | .atcas _ rd a b => some (encR 0x1C rd a b 5)
  | .beq _ a b o => some (encI 0x20 a b o)
  | .bne _ a b o => some (encI 0x21 a b o)
  | .blt _ a b o => some (encI 0x22 a b o)
  | .bge _ a b o => some (encI 0x23 a b o)
  | .bltu _ a b o => some (encI 0x24 a b o)
  | .bgeu _ a b o => some (encI 0x25 a b o)
  | .call _ o => some (encJ 0x26 o)
  | .callr _ rd a i => some (encI 0x27 rd a i)
  | .loop _ gs n cnt => some (encI 0x28 gs n cnt)
  | .srr _ rd n => some (encI 0x2C rd 0 n)
  | .srw _ rs1 n => some (encI 0x2D 0 rs1 n)
  | .trap _ rs2 => some (encR 0x2E 0 0 rs2 0)
  | .reti _ => some (encR 0x2E 0 0 0 1)
  | .wait _ => some (encR 0x2E 0 0 0 2)
  | .fence _ => some (encR 0x2E 0 0 0 3)
  | .iflush _ => some (encR 0x2E 0 0 0 4)
  | .fdone _ gs => some (encR 0x2E 0 gs 0 5)
  | .lmov _ vd va => some (encR 0x30 vd va 0 (laneFunc 0 0))
  | .land _ vd va vb => some (encR 0x30 vd va vb (laneFunc 1 0))
  | .lor _ vd va vb => some (encR 0x30 vd va vb (laneFunc 2 0))
  | .lxor _ vd va vb => some (encR 0x30 vd va vb (laneFunc 3 0))
  | .laddW _ vd va vb => some (encR 0x30 vd va vb (laneFunc 4 0))
  | .lsubW _ vd va vb => some (encR 0x30 vd va vb (laneFunc 5 0))
  | .lsplat _ vd gs => some (encR 0x30 vd gs 0 (laneFunc 6 0))
  | .lins _ vd gs n => some (encR 0x30 vd gs 0 (laneFunc 7 n.toNat))
  | .lshl _ vd va n => some (encR 0x30 vd va 0 (laneFunc 8 n.toNat))
  | .lshr _ vd va n => some (encR 0x30 vd va 0 (laneFunc 9 n.toNat))
  | .lmacP _ vd va vb => some (encR 0x30 vd va vb (laneFunc 10 0))
  | .lmacD _ vd va vb => some (encR 0x30 vd va vb (laneFunc 11 0))
  | .lcrc _ gd va => some (encR 0x30 gd va 0 (laneFunc 12 0))
  | .judge _ gd va vb => some (encR 0x30 gd va vb (laneFunc 13 0))
  | .lext _ gd va pos wm1 sx z => some (encX gd va pos wm1 sx z)
  | .lld _ vd a i => some (encI 0x34 vd a i)
  | .lst _ vs a i => some (encI 0x35 vs a i)
  | .cpush _ vd gs => some (encR 0x36 vd gs 0 0)
  | _ => none

/-! ## Immediates -/

/-- A signed immediate (Table 06-2, format I). -/
def simm (i : BitVec 16) : Word := i.signExtend 32

/-- The target of a branch or CALL: its offset counts instructions from the branch's own address (R131). -/
def branchTarget {n : Nat} (pc : Word) (off : BitVec n) : Word := pc + (off.signExtend 32 <<< 2)

end Sys2Proof.Machine
end

