-- ==== Sys2Proof/Machine/CoreOps.lean ====
section
/-!
DEFINITION. What every instruction of a core shares: where an address lies for its cluster (R75 to R78), fetch (R142, R152),
taking an exception as one operation (R152, R153, R155, Table 06-8), the end of an instruction with the loop (R143, R144), and
the issue of one instruction (R131, R135).
-/
namespace Sys2Proof.Machine

/-! ## The memory map (Table 04-1, R78) -/

/-- What an address reaches. -/
inductive Region where
  | mem (m : MemName) (off : Nat)
  | setAlias (off : Nat)
  | clearAlias (off : Nat)
  | periph (b : BlkId) (off : Nat)
  | nothing
deriving DecidableEq, Repr

/-- A block code that names a block: the slots 0x0A to 0x0F hold none (R76). -/
def blockExists (n : Nat) : Bool := decide (n < 10) || (decide (16 ≤ n) && decide (n < 39))

/-- A TCM address of a cluster by its offset: the ITCM below its size, the DTCM above (R78). -/
def tcmAt (c : Cl) (x : Nat) : Region :=
  if x < tcmBytes c then .mem (.itcm c) x
  else if x < 2 * tcmBytes c then .mem (.dtcm c) (x - tcmBytes c)
  else .nothing

/-- The region of an address as a cluster sees it (Table 04-1); rights are checked apart. -/
def regionOf (c : Cl) (a : Nat) : Region :=
  if a < 0x00010000 then .mem .rom a
  else if 0x01000000 ≤ a ∧ a < 0x01040000 then tcmAt stw (a - 0x01000000)
  else if 0x07000000 ≤ a ∧ a < 0x07080000 then tcmAt c (a - 0x07000000)
  else if 0x08000000 ≤ a ∧ a < 0x08400000 then
    tcmAt (vcl ⟨(a - 0x08000000) / 0x00100000 % 4, by omega⟩) ((a - 0x08000000) % 0x00100000)
  else if 0x10000000 ≤ a ∧ a < 0x10800000 then .mem .chord (a - 0x10000000)
  else if 0x20000000 ≤ a ∧ a < 0x20200000 then .mem (.score 0) (a - 0x20000000)
  else if 0x20200000 ≤ a ∧ a < 0x20400000 then .mem (.score 1) (a - 0x20200000)
  else if 0x24000000 ≤ a ∧ a < 0x24080000 then .mem .verdict (a - 0x24000000)
  else if 0x25000000 ≤ a ∧ a < 0x25080000 then .setAlias (a - 0x25000000)
  else if 0x26000000 ≤ a ∧ a < 0x26080000 then .clearAlias (a - 0x26000000)
  else if h : 0x30000000 ≤ a ∧ a < 0x30270000 then
    let n := (a - 0x30000000) / 0x10000
    if blockExists n then .periph ⟨n % 39, by omega⟩ ((a - 0x30000000) % 0x10000) else .nothing
  else if 0x60000000 ≤ a ∧ a < 0x70000000 then .mem .xip (a - 0x60000000)
  else .nothing

/-- Bytes in a memory, as an access must stay inside it. -/
def MemName.bytes : MemName → Nat
  | .itcm c | .dtcm c => tcmBytes c
  | .chord => 0x00800000
  | .score _ => 0x00200000
  | .verdict => 0x00080000
  | .rom => 0x00010000
  | .xip => 0x10000000

/-- A cluster may read a memory (Table 04-1). -/
def readable (c : Cl) (m : MemName) : Bool :=
  match m with
  | .rom | .xip => c == stw
  | .itcm d | .dtcm d => c == stw || c == d
  | .chord | .score _ | .verdict => true

/-- A cluster may write a memory (Table 04-1): a Voice not its own ITCM. -/
def writable (c : Cl) (m : MemName) : Bool :=
  match m with
  | .itcm _ => c == stw
  | .dtcm d => c == stw || c == d
  | .chord | .verdict => true
  | .score _ | .rom | .xip => false

/-- A cluster may fetch from a memory (Table 04-1): a Voice only from its own ITCM (R142). -/
def mayExecute (c : Cl) (m : MemName) : Bool :=
  match m with
  | .itcm d => c == d
  | .rom | .xip => c == stw
  | _ => false

/-- Bytes of an access width. -/
def sizeBytes : Size → Nat
  | .b1 => 1 | .b2 => 2 | .b4 => 4 | .b16 => 16

/-- A memory accepts a load or store of a width at an offset (R77). An unaligned access that would cross from the end of one memory into
the adjoining one, as from the ITCM into the DTCM, is not accepted (DESIGN CHOICE, log 93). -/
def accepts (m : MemName) (off : Nat) (sz : Size) : Bool :=
  match m with
  | .itcm _ | .dtcm _ | .chord | .rom | .xip => decide (off + sizeBytes sz ≤ m.bytes)
  | .score _ | .verdict => (sz == .b4 || sz == .b16) && off % sizeBytes sz == 0

/-- Register space accepts aligned 32-bit and 16-byte-aligned 128-bit accesses (R6); the Verdict aliases the same (R77). -/
def acceptsReg (off : Nat) (sz : Size) : Bool := (sz == .b4 || sz == .b16) && off % sizeBytes sz == 0

/-! ## Running -/

/-- The cluster is isolated by its wrapper: in TACET (R110). -/
def State.isolated (s : State) (c : Cl) : Bool := s.unis.tacet.getLsbD c.val

/-- The core can issue an instruction: out of reset, powered (R241), not in WAIT (R160), not waiting for a line (R137), not
stopped by a double fault (R153) or by its wrapper (R110), no late store error due at this boundary (Table 06-9), and a position
of the egress hold free, for commit stops without one (R163). -/
def State.runnable (s : State) (c : Cl) : Bool :=
  let k := s.core[c]
  !k.inReset && !k.doubleFault && !k.waiting && !k.blocked && k.late.isEmpty && decide (k.egress.length < 4) && !s.isolated c &&
    s.powerOf (rqCl c) == .run

/-! ## What the egress hold still holds (R133) -/

/-- A store that has left the hold waits in the L1D for its line. -/
def L1Line.storeOut (x : L1Line) : Option Word :=
  match x.wait with
  | some w => match w.op with | .store _ _ _ false => some w.addr | _ => none
  | none => none

def State.storeWaits (s : State) (c : Cl) : Bool := s.chord.l1d[c].any (fun x => x.storeOut.isSome)

/-- A held transaction is not yet performed. -/
def State.unperformed (s : State) (c : Cl) (e : Egress) : Bool := !e.released || (s.storeWaits c &&
  (match e.op with
    | .store a _ _ _ => s.chord.l1d[c].any (fun x => x.storeOut == some a)
    | _ => false))

/-- Two byte ranges overlap. -/
def meet (a n b m : Nat) : Bool := decide (a < b + m) && decide (b < a + n)

/-- A held store touches bytes of a memory; a poisoned one touches its whole words (R86), an alias the Verdict word. -/
def Egress.touches (c : Cl) (e : Egress) (m : MemName) (off n : Nat) : Bool :=
  match e.op with
  | .store a sz _ p =>
    match regionOf c a.toNat with
    | .mem m' o => m' == m && (meet o (sizeBytes sz) off n || (p && (touched m' o (sizeBytes sz)).any (fun l => meet (16 * l.idx) 16 off n)))
    | .setAlias o | .clearAlias o => m == .verdict && meet o (sizeBytes sz) off n
    | _ => false
  | _ => false

/-- A held store that is not yet performed touches a stack frame: what stacks or unstacks it follows the store in program order
and waits for it (R133, R155, R156). -/
def State.frameHeld (s : State) (c : Cl) (off : Nat) : Bool :=
  s.core[c].egress.any (fun e => s.unperformed c e && e.touches c (.dtcm c) off 32)

/-! ## Exception and interrupt entry (R152, R153, R155) -/

/-- STATUS as a system register (Table 06-1). -/
def Core.status (k : Core) : Word :=
  place 32 0 k.curLvl ||| place 32 5 (bit k.ie) ||| place 32 8 k.maskLvl ||| place 32 16 (bit k.inLoop)

/-- The frame's first word (Table 06-8). -/
def Core.frameLow (k : Core) (pc : Word) : Native :=
  place 128 0 pc ||| place 128 32 k.status ||| place 128 64 k.loopCount ||| place 128 96 k.loopStart ||| place 128 112 k.loopEnd

/-- The frame's second word: g1, g3, g4, g5 (Table 06-8). -/
def Core.frameHigh (k : Core) : Native :=
  place 128 0 (k.readG 1).1 ||| place 128 32 (k.readG 3).1 ||| place 128 64 (k.readG 4).1 ||| place 128 96 (k.readG 5).1

/-- A tag among the registers of the frame's second word: its store poisons the whole word (R86; 06, Edge cases). -/
def Core.frameTag (k : Core) : Bool := (k.readG 1).2 || (k.readG 3).2 || (k.readG 4).2 || (k.readG 5).2

/-- The core stops: double fault (R153). -/
def State.stopCore (s : State) (c : Cl) : State := s.onCore c (fun k => { k with doubleFault := true })

/-- The offset of SP in the cluster's own DTCM, when a 32-byte frame fits there and SP is 16-byte aligned (R155). -/
def stackOff (c : Cl) (sp : Word) : Option Nat :=
  match regionOf c sp.toNat with
  | .mem (.dtcm d) off => if d = c ∧ off % 16 = 0 ∧ off + 32 ≤ tcmBytes c then some off else none
  | _ => none

/-- An entry has to wait for an older held store to its frame. -/
def State.frameBusy (s : State) (c : Cl) : Bool :=
  let k := s.core[c]
  match stackOff c ((k.readG 2).1 - 32), (k.readG 2).2 with
  | some off, false => s.frameHeld c off
  | _, _ => false

/-- Word `n` of the vector table: its offset in the own ITCM, if it lies there (Table 06-1 VTABLE, R152). -/
def vectorOff (c : Cl) (k : Core) (n : Nat) : Option Nat :=
  let a := k.vtable.toNat * 512 + 4 * n
  match regionOf c a with
  | .mem (.itcm d) off => if d = c ∧ off + 4 ≤ tcmBytes c then some off else none
  | _ => none

/-- Fetch from a vector: the handler's address, none when the read cannot deliver one. -/
def State.readVector (s : State) (c : Cl) (n : Nat) : State × Option Word :=
  match vectorOff c s.core[c] n with
  | some off =>
    let v := s.peekBytes (.itcm c) off 4
    (s.noteBytes (.itcm c) off 4 (initOf c), if v.2 then none else some (v.1.setWidth 32))
  | none => (s, none)

/-- The core after its handler's address is known: CURLVL, INLOOP, EPC and PC (R155 step 4). -/
def Core.enter (k : Core) (level : BitVec 5) (retPc handler : Word) : Core :=
  { k with curLvl := level, inLoop := false, loopBuf := false, loopPart := false, draining := false, epc := retPc, pc := handler }

/-- Entry of an exception or interrupt: the lane results in flight are written, the frame of Table 06-8 is stacked below g2,
the vector is read, and the handler starts. A fault of the stack pointer or the vector is a double fault (R153, R155). `pick`
names the vector once the frame is written. -/
def State.entry (s : State) (c : Cl) (retPc : Word) (pick : Core → Nat × BitVec 5) (done : Core → Core) : State :=
  let s0 := s.onCore c Core.drainLane
  let k := s0.core[c]
  let sp := (k.readG 2).1 - 32
  match stackOff c sp, (k.readG 2).2 with
  | some off, false =>
    let s1 := s0.storeWord ⟨.dtcm c, off / 16⟩ (k.frameLow retPc) false
    let s2 := s1.storeWord ⟨.dtcm c, off / 16 + 1⟩ k.frameHigh k.frameTag
    let s3 := s2.onCore c (fun k => k.writeG 2 sp false)
    let (n, level) := pick s3.core[c]
    match s3.readVector c n with
    | (s4, some h) => s4.onCore c (fun k => done (k.enter level retPc h))
    | (s4, none) => s4.stopCore c
  | _, _ => s0.stopCore c

/-- Taking an exception (R152): CURLVL 17, vector 64 + CODE; ECAUSE, EADDR and EPC written at entry. At CURLVL 17 it is a double
fault (R153). A poison exception reports CORE_POISON (Table 09-7). While an older held store to the frame has not been performed,
the instruction waits with it (R133). -/
def State.takeException (s : State) (c : Cl) (code : Nat) (detail : Byte) (eaddr : Word) : State :=
  if s.frameBusy c then s
  else
  let s := s.when (code == 0x06) (fun s => s.detect .corePoison c.val eaddr)
  if s.core[c].curLvl = 17 then s.stopCore c
  else s.entry c s.core[c].pc (fun _ => (64 + code, 17))
    (fun k => { k with ecause := place 16 0 (BitVec.ofNat 8 code) ||| place 16 8 detail, eaddr := eaddr })

/-- The exceptions by name (Table 06-9). -/
def State.excIllegal (s : State) (c : Cl) (word : Word) : State := s.takeException c 0x01 0 word
def State.excFetch (s : State) (c : Cl) (addr : Word) : State := s.takeException c 0x02 0 addr
def State.excLoad (s : State) (c : Cl) (addr : Word) : State := s.takeException c 0x03 0 addr
def State.excStore (s : State) (c : Cl) (addr : Word) : State := s.takeException c 0x04 0 addr
def State.excLate (s : State) (c : Cl) (addr : Word) : State := s.takeException c 0x05 0 addr
def State.excPoison (s : State) (c : Cl) (detail : Byte) (addr : Word) : State := s.takeException c 0x06 detail addr
def State.excIllegalLoop (s : State) (c : Cl) (word : Word) : State := s.takeException c 0x07 0 word
def State.excRefused (s : State) (c : Cl) (range : Word) : State := s.takeException c 0x08 0 range
def State.excTrap (s : State) (c : Cl) (code : Byte) : State := s.takeException c 0x09 code 0

/-! ## The end of an instruction -/

/-- The instruction index in the own ITCM of an address, if it lies there. -/
def itcmIndex (c : Cl) (a : Word) : Option (BitVec 16) :=
  match regionOf c a.toNat with
  | .mem (.itcm d) off => if d = c then some (BitVec.ofNat 16 (off / 4)) else none
  | _ => none

/-- PC after an instruction that does not branch: the loop's next iteration after its last body instruction, else the next
word (R143). -/
def Core.next (k : Core) (c : Cl) : Core :=
  let k := k.ageLane
  if k.inLoop && itcmIndex c k.pc == some k.loopEnd then
    if k.loopCount = 0 then { k with inLoop := false, loopBuf := false, loopPart := false, pc := k.pc + 4 }
    else { k with
      loopCount := k.loopCount - 1, loopBuf := !k.loopPart, loopPart := false
      pc := k.pc - (((k.loopEnd - k.loopStart).setWidth 32) <<< 2) }
  else { k with pc := k.pc + 4 }

/-- PC after a taken branch, CALL or CALLR; it ends a loop whose body it leaves (R144). -/
def Core.jump (k : Core) (target : Word) : Core :=
  { k.ageLane with pc := target, inLoop := false, loopBuf := false, loopPart := false }

/-- The instruction's effect on its core, then the next PC. -/
def State.finish (s : State) (c : Cl) (f : Core → Core) : State := s.onCore c (fun k => (f k).next c)

/-! ## Issue -/

/-- The address lies in the body of the running loop. -/
def inBody (c : Cl) (k : Core) (a : Word) : Bool :=
  match itcmIndex c a with
  | some i => decide (k.loopStart ≤ i) && decide (i ≤ k.loopEnd)
  | none => false

/-- Fetch of the instruction at PC: FETCH_BUS outside an executable region, POISON for a poisoned instruction word (R95, R152);
the word itself comes with the command (log 17). -/
def State.fetch (s : State) (c : Cl) (go : State → State) : State :=
  let pc := s.core[c].pc
  -- iterations after the first come from the loop buffer (R143)
  if s.core[c].inLoop && s.core[c].loopBuf then go s
  else match regionOf c pc.toNat with
  | .mem m off =>
    if mayExecute c m && accepts m off .b4 then
      let v := s.peekBytes m off 4
      let s1 := s.noteBytes m off 4 (initOf c)
      if v.2 then s1.excPoison c 4 pc else go s1
    else s.excFetch c pc
  | _ => s.excFetch c pc

/-- One instruction: it stalls while the core cannot issue; `legal` are the encoding checks of R131, `loopOk` those of R144. -/
def State.issue (s : State) (c : Cl) (word : Word) (legal : Bool) (loopOk : Bool) (go : State → State) : State :=
  if s.runnable c then
    s.fetch c (fun s =>
      if !legal then s.excIllegal c word
      else if s.core[c].inLoop && !loopOk then s.excIllegalLoop c word
      else go s)
  else s

/-- A v field has bit 4 clear (R131). -/
def vok (r : RegF) : Bool := !r.getLsbD 4

end Sys2Proof.Machine
end

