-- ==== Sys2Proof/Machine/Coherent.lean ====
section
/-!
DEFINITION. Chord as every unit meets it (08): lines and homes (R177), the L1D lines, both trackers' entries of a line (R188,
R189), the data array, and the reads and writes of the units that cache nothing (R177, R91, R92; log 13).
-/
namespace Sys2Proof.Machine

/-! ## Lines -/

/-- A line inside the Chord window (Table 04-1). -/
def lineOk (l : Line) : Bool := decide (0x10000000 / 64 ≤ l.toNat) && decide (l.toNat < 0x10800000 / 64)

/-- Byte address of a line. -/
def lineAddr (l : Line) : Nat := 64 * l.toNat

/-- Index of a line's first native word in the Chord memory. -/
def lineIdx (l : Line) : Nat := (lineAddr l - 0x10000000) / 16

/-- The line of an address. -/
def lineOf (a : Nat) : Line := BitVec.ofNat 26 (a / 64)

/-- The home slice: address bits [7:6] (R177). -/
def homeOf (l : Line) : SliceId := ⟨l.toNat % 4, by omega⟩

/-- The L1D set: address bits [12:6]. -/
def l1Set (l : Line) : Nat := l.toNat % 128

/-- The set of the Vector Directory: address bits [13:8] (R189). -/
def vdSet (l : Line) : Nat := l.toNat / 4 % 64

/-- The cluster of a caching agent. -/
def cacheOf (a : Agent) : Option Cl := if h : a.val < 5 then some ⟨a.val, h⟩ else none

/-- The agent of a cluster (R177). -/
def agentOf (c : Cl) : Agent := ⟨c.val, by omega⟩

/-- The INITIATOR of an agent (Table 04-8). -/
def agentInit (a : Agent) : Init :=
  if h : a.val < 4 then .voice ⟨a.val, h⟩
  else match a.val with | 4 => .steward | 5 => .mirror | 6 => .mbox | 7 => .xspi | _ => .gov

/-- Word `i` of a line's data. -/
def lineWord (d : BitVec 512) (i : Nat) : Native := field d (128 * i) 128

/-- A line's data with word `i` replaced. -/
def setLineWord (d : BitVec 512) (i : Nat) (w : Native) : BitVec 512 := putField d (128 * i) w

/-! ## L1D lines -/

/-- What the four words of a line deliver: data and poison (R91, R94). -/
def L1Line.data (x : L1Line) : BitVec 512 :=
  (List.range 4).foldl (fun d i => setLineWord d i (getN x.words i zeroCell).deliver.1) 0
def L1Line.poison (x : L1Line) : BitVec 4 :=
  (List.range 4).foldl (fun p i => putBit p i (getN x.words i zeroCell).deliver.2) 0

/-- A line's four words as they are stored from a message. -/
def lineCells (d : BitVec 512) (p : BitVec 4) : Vector Cell 4 :=
  Vector.ofFn (fun i => Cell.store (lineWord d i.val) (p.getLsbD i.val))

def State.l1 (s : State) (c : Cl) (l : Line) : Option L1Line := s.chord.l1d[c].find? (fun x => x.line == l)

/-- The L1D with a line's entry replaced or added. -/
def State.l1Put (s : State) (c : Cl) (x : L1Line) : State :=
  s.onChord (fun h => { h with l1d := upd h.l1d c (fun ls =>
    if ls.any (fun y => y.line == x.line) then ls.map (fun y => if y.line == x.line then x else y) else ls ++ [x]) })

/-- The L1D without a line: state I. -/
def State.l1Drop (s : State) (c : Cl) (l : Line) : State :=
  s.onChord (fun h => { h with l1d := upd h.l1d c (fun ls => ls.filter (fun y => y.line != l)) })

/-- The accounting of a read of word `i` of an L1D line: its MEM code, and its index by set, way and word (log 11). -/
def State.noteL1 (s : State) (c : Cl) (x : L1Line) (i : Nat) : State :=
  let idx := (l1Set x.line * 4 + x.way.toNat) * 4 + i
  s.account (if c = stw then 0x04 else BitVec.ofNat 8 (0x13 + 4 * c.val)) (BitVec.ofNat 24 idx) (lineAddr x.line + 16 * i)
    (getN x.words i zeroCell).syn (initOf c)

/-- The accounting of the reads of a whole L1D line. -/
def State.noteL1Line (s : State) (c : Cl) (x : L1Line) : State := s.each (List.range 4) (fun i s => s.noteL1 c x i)

/-! ## Trackers of a line (R188, R189) -/

/-- An agent leaves a line: its entry is cleared in both trackers. -/
def State.dropHolder (s : State) (l : Line) (c : Cl) : State :=
  s.onSlice (homeOf l) (fun h => { h with
    tm := h.tm.filter (fun e => !(e.line == l && e.agent == c))
    vd := (h.vd.map (fun e => if e.line = l then { e with vec := putBit e.vec c.val false, x := false } else e)).filter
      (fun e => e.transient || e.vec != 0) })

/-- The exclusive owner keeps the line shared (R186). -/
def State.unX (s : State) (l : Line) : State :=
  s.onSlice (homeOf l) (fun h => { h with
    tm := h.tm.map (fun e => if e.line = l then { e with x := false } else e)
    vd := h.vd.map (fun e => if e.line = l then { e with x := false } else e) })

/-! ## The data array -/

/-- A line read from the array, with its poison bits, and the accounting of the four reads. -/
def State.readLine (s : State) (l : Line) (i : Init) : State × BitVec 512 × BitVec 4 :=
  let base := lineIdx l
  let ws := (List.range 4).map (fun j => s.peekWord ⟨.chord, base + j⟩)
  let s1 := s.each (List.range 4) (fun j t => t.noteRead ⟨.chord, base + j⟩ i)
  let data := (ws.zipIdx).foldl (fun d p => setLineWord d p.2 p.1.1) (0 : BitVec 512)
  let po := (ws.zipIdx).foldl (fun d p => putBit d p.2 p.1.2) (0 : BitVec 4)
  (s1, data, po)

/-- The words of a line that a mask names written into the array (R180). -/
def State.writeLine (s : State) (l : Line) (data : BitVec 512) (poison mask : BitVec 4) : State :=
  s.each (List.range 4) (fun j t =>
    t.when (mask.getLsbD j) (fun t => t.storeWord ⟨.chord, lineIdx l + j⟩ (lineWord data j) (poison.getLsbD j)))

/-- A line of an L1D written into the array: what its words deliver. -/
def State.writeBack (s : State) (c : Cl) (x : L1Line) : State := (s.noteL1Line c x).writeLine x.line x.data x.poison 15

/-- A dead agent's dirty line is lost: poisoned, counted, logged, reported (R196). -/
def State.loseLine (s : State) (l : Line) (c : Cl) : State :=
  let entry : Native := place 128 0 (BitVec.ofNat 32 (lineAddr l)) ||| place 128 32 (BitVec.ofNat 4 c.val) |||
    place 128 40 (BitVec.ofNat 2 (homeOf l).val) ||| place 128 64 s.metr.lineTime
  let s1 := s.each (List.range 4) (fun j t =>
    t.storeWord ⟨.chord, lineIdx l + j⟩ (t.peekWord ⟨.chord, lineIdx l + j⟩).1 true)
  let s2 := (s1.cntChord .lost).onChord (fun h => { h with lostLog := h.lostLog.push 16 entry })
  (s2.evChord .lost).detect .cohLost (homeOf l).val (BitVec.ofNat 32 (lineAddr l))

/-- A dead agent's line must be taken for lost: dirty in its L1D, or its tag word is uncorrectable (R195). -/
def L1Line.lost (x : L1Line) : Bool := x.st == .m || x.tagBad

/-! ## Reads and writes of the units that cache nothing (R177, Tables 08-3, 08-4; log 13) -/

/-- The data of a line that a message is carrying to its home. -/
def State.lineInFlight (s : State) (l : Line) : Option (BitVec 512 × BitVec 4) :=
  s.chord.net.findSome? (fun m => match m with
    | .carryDirty _ l' d p _ => if l' = l then some (d, p) else none
    | .carryPut a l' d p _ =>
      if l' = l then
        match cacheOf a with
        | some c => if (s.l1 c l).any (fun x => x.st == .miA) then some (d, p) else none
        | none => none
      else none
    | _ => none)

/-- One cache answers the ProbeShare of a hardware read: an owner keeps the line shared, a write-back gives its data (Table
08-3); a dead owner's dirty line is lost (R195). -/
def State.shareProbe (s : State) (c : Cl) (l : Line) : State :=
  match s.l1 c l with
  | none => s
  | some x =>
    if s.chord.wrapped.getLsbD c.val then s.when x.lost (fun s => ((s.loseLine l c).dropHolder l c).l1Drop c l)
    else match x.st with
    | .m => ((s.writeBack c x).l1Put c { x with st := .s }).unX l
    | .e => (s.l1Put c { x with st := .s }).unX l
    | .miA => ((s.writeBack c x).l1Put c { x with st := .iiA }).dropHolder l c
    | _ => s

/-- Data on its way to the home arrives there first; an in-flight owner change keeps its order. -/
def State.shareLine (s : State) (l : Line) : State :=
  let s1 := s.each clusters (fun c s => s.shareProbe c l)
  match s.lineInFlight l with
  | some (d, p) => s1.writeLine l d p 15
  | none => s1

/-- The home of a line in RETAIN is asked to wake for an access (R87). -/
def State.wakeHome (s : State) (l : Line) : State :=
  s.when (s.powerOf (rqSlice (homeOf l)) == .retain) (·.askGrant (rqSlice (homeOf l)))

/-- A Chord word read by a unit that caches nothing: an AskPeek of its line, done at once. -/
def State.chordRead (s : State) (idx : Nat) (i : Init) : State × Native × Bool :=
  let l : Line := BitVec.ofNat 26 ((0x10000000 + 16 * idx) / 64)
  let s1 := (s.wakeHome l).shareLine l
  (s1.noteRead ⟨.chord, idx⟩ i, s1.peekWord ⟨.chord, idx⟩)

/-- The word that read would deliver. -/
def State.chordNow (s : State) (idx : Nat) : Native × Bool :=
  (s.shareLine (BitVec.ofNat 26 ((0x10000000 + 16 * idx) / 64))).peekWord ⟨.chord, idx⟩

/-- The native word of the Chord window at an address, if it lies in it. -/
def State.chordAt (s : State) (addr : Nat) : Option (Native × Bool) :=
  if 0x10000000 ≤ addr ∧ addr < 0x10800000 then some (s.chordNow ((addr - 0x10000000) / 16)) else none

/-- A read of that word, with its effects. -/
def State.chordReadAt (s : State) (addr : Nat) (i : Init) : State × Option (Native × Bool) :=
  if 0x10000000 ≤ addr ∧ addr < 0x10800000 then
    let r := s.chordRead ((addr - 0x10000000) / 16) i
    (r.1, some r.2)
  else (s, none)

/-- One cache answers the ProbeTake or ProbeKill of a hardware write: it no longer holds the line (Table 08-3). -/
def State.killProbe (s : State) (c : Cl) (l : Line) : State :=
  match s.l1 c l with
  | none => s
  | some x =>
    if s.chord.wrapped.getLsbD c.val then (s.l1Drop c l).dropHolder l c
    else match x.st with
    | .s | .e | .m => (s.l1Drop c l).dropHolder l c
    | .smD => (s.l1Put c { x with st := .imD }).dropHolder l c
    | .miA | .ciA => (s.l1Put c { x with st := .iiA }).dropHolder l c
    | _ => s

/-- A message that carries the line, with one of its words replaced: the write is ordered before what carries it. -/
def CohMsg.patch (m : CohMsg) (l : Line) (w : Nat) (data : Native) (poison : Bool) : CohMsg :=
  match m with
  | .carryGrant a l' d p x n => if l' = l then .carryGrant a l' (setLineWord d w data) (putBit p w poison) x n else m
  | .carryDirty a l' d p x => if l' = l then .carryDirty a l' (setLineWord d w data) (putBit p w poison) x else m
  | .carryPut a l' d p k => if l' = l then .carryPut a l' (setLineWord d w data) (putBit p w poison) k else m
  | m => m

/-- A native word stored into Chord by hardware: an AskPut of that word, done at once. -/
def State.chordStore (s : State) (a : Nat) (data : Native) (poison : Bool) : State :=
  if 0x10000000 ≤ a ∧ a < 0x10800000 then
    let idx := (a - 0x10000000) / 16
    let l := lineOf a
    let s1 := ((s.wakeHome l).shareLine l).each clusters (fun c s => s.killProbe c l)
    let s2 := s1.onChord (fun h => { h with net := h.net.map (fun m => m.patch l (idx % 4) data poison) })
    s2.storeWord ⟨.chord, idx⟩ data poison
  else s

end Sys2Proof.Machine
end

