-- ==== Sys2Proof/Machine/Trunk.lean ====
section
/-!
DEFINITION. Trunk engines (03): bring-up and discovery, record checks, NAKs, the Sentinel and the urgent path, command
transmission, acknowledgement and retransmission, link faults, URG_LOG; with the zone outputs (R219) and the route table (R71).
-/
namespace Sys2Proof.Machine

/-! ## Which engines exist -/

/-- The trunk is populated (Table 03-11 note; R275). -/
def State.populated (s : State) (t : TrkId) : Bool :=
  if s.rst.opt.bench then t.val == 0 else !s.rst.opt.trunks8 || decide (t.val < 8)

/-! ## Zones (R219) -/

/-- ZONE_n is high exactly while all conditions of R219 hold. -/
def State.zoneLevel (s : State) (t : TrkId) : Bool :=
  s.gov.state == .permitted && s.trk[t].link == .up && !s.unis.planShed.getLsbD t.val && !s.gov.zoneTrip.getLsbD t.val

/-- Samples of the read-back that fall in the 100 us allowed after a commanded change (R220). -/
def rbAllow : Nat := 10

/-- The zone outputs driven to the levels of R219; a changed level restarts the read-back's allowance (R220). -/
def State.fixZones (s : State) : State :=
  s.onGov (fun g =>
    let z := trunks.foldl (fun z t => putBit z t.val (s.zoneLevel t)) 0
    { g with zone := z, rbSkip := if z = g.zone then g.rbSkip else rbAllow })

/-! ## Route table (R71) -/

/-- The route entry in memory; a poisoned or unreadable entry marks its concentrator absent (log 14). -/
def State.routeMem (s : State) (t : TrkId) (c : BitVec 5) : Native :=
  match s.chordAt ((s.trk[t].routeBase.toNat * 512) + 16 * c.toNat) with
  | some (w, false) => w
  | _ => 0

/-- The entry a lookup uses: the cached copy, or memory where nothing is cached; where the two differ, either (R20, R21). -/
def State.routeEntry (s : State) (t : TrkId) (c : BitVec 5) : Native :=
  let now := s.routeMem t c
  match getN s.trk[t].route c.toNat none with
  | none => now
  | some old => if old = now then now else if Config.staleLookup s.free then now else old

/-- The read of an entry in memory, counted and logged for the engine (R91, R102). -/
def State.noteRoute (s : State) (t : TrkId) (c : BitVec 5) : State :=
  (s.chordReadAt ((s.trk[t].routeBase.toNat * 512) + 16 * c.toNat) .trunk).1

/-- The cache after a lookup of an entry. -/
def State.routeUse (s : State) (t : TrkId) (c : BitVec 5) : State :=
  let e := s.routeEntry t c
  let s := s.when (getN s.trk[t].route c.toNat none).isNone (·.noteRoute t c)
  (s.onTrk t (fun k => { k with route := updN k.route c.toNat (fun o => match o with | none => some e | o => o) })).fresh

/-- Every cached entry discarded and reloaded from memory (R19, R20). -/
def State.routeReload (s : State) (t : TrkId) : State :=
  let s := s.each (List.range 32) (fun i s => s.noteRoute t (BitVec.ofNat 5 i))
  s.onTrk t (fun k => { k with route := Vector.ofFn (fun i => some (s.routeMem t (BitVec.ofNat 5 i.val))) })

/-- PRESENT of a concentrator (R71). -/
def State.present (s : State) (t : TrkId) (c : BitVec 5) : Bool := (s.routeEntry t c).getLsbD 64

/-- Concentrators marked present. -/
def State.presentMask (s : State) (t : TrkId) : Word :=
  (List.range 32).foldl (fun m i => if s.present t (BitVec.ofNat 5 i) then m ||| oneHot 32 i else m) 0

/-! ## Command words (Table 03-8) -/

inductive Opcode where
  | nop | deEnergize | energize | setPoint | hold | query | zoneOff | reserved
deriving DecidableEq, Repr

def cmdSlot (w : Native) : BitVec 8 := field w 0 8
def cmdConc (w : Native) : BitVec 5 := field w 8 5
def cmdOpcode (w : Native) : Opcode :=
  match (field w 13 3).toNat with
  | 0 => .nop | 1 => .deEnergize | 2 => .energize | 3 => .setPoint | 4 => .hold | 5 => .query | 6 => .zoneOff | _ => .reserved
def cmdVset (w : Native) : BitVec 20 := field w 16 20
def cmdIset (w : Native) : BitVec 24 := field w 36 24
def cmdClass (w : Native) : BitVec 4 := field w 60 4
def cmdSeq (w : Native) : Byte := field w 72 8
def cmdOrigin (w : Native) : BitVec 4 := field w 80 4
def cmdHw (w : Native) : Bool := w.getLsbD 84
def cmdAll (w : Native) : Bool := w.getLsbD 85

/-- Protective words: DE-ENERGIZE, ZONE_OFF and HOLD (R25). -/
def protective (w : Native) : Bool :=
  match cmdOpcode w with | .deEnergize | .zoneOff | .hold => true | _ => false

/-- ENERGIZE and SET_POINT, the opcodes that need an epoch (Table 03-9). -/
def energizing (w : Native) : Bool := match cmdOpcode w with | .energize | .setPoint => true | _ => false

/-- A word with EPOCH and FRAME_TAG stamped (R212). -/
def stamp (s : State) (w : Native) : Native :=
  putField (putField w 64 s.gov.epochHb) 88 (s.metr.frameNow.setWidth 8)

/-- A hardware word (R61, R69): HW_ORIGIN set, zero set-points, ORIGIN 0. -/
def hwWord (s : State) (slot : BitVec 8) (conc : BitVec 5) (op : BitVec 3) (cls : BitVec 4) (all : Bool) : Native :=
  stamp s (place 128 0 slot ||| place 128 8 conc ||| place 128 13 op ||| place 128 60 cls ||| place 128 84 (bit true) |||
    place 128 85 (bit all))

/-- Words queued for a trunk in a class. -/
def Trunk.queuedIn (k : Trunk) (c : TxClass) : Nat := (k.txq.filter (fun w => w.cls == c)).length

/-- A word queued for a trunk; an engine in TACET takes none (check 5 of Table 09-3). -/
def State.queueWord (s : State) (t : TrkId) (w : TxWord) : State :=
  if s.trk[t].link = .tacet then s.cntGov .tacet else s.onTrk t (fun k => { k with txq := k.txq ++ [w] })

/-- A hardware ZONE_OFF with ALL_CONC at protective precedence (R69, R203, R229). -/
def State.queueZoneOff (s : State) (t : TrkId) : State :=
  s.queueWord t ⟨hwWord s 0 0 6 0 true, .protective, none, none⟩

/-- That word on every trunk in UP. -/
def State.zoneOffAll (s : State) : State :=
  s.each trunks (fun t s => s.when (s.trk[t].link == .up) (·.queueZoneOff t))

/-! ## Bring-up (Table 03-2, R49) -/

/-- The engine enters TRAIN with nothing queued for the link (Table 03-2); in WINTER it is off and trains when SPRING begins
(Table 10-3), and an engine that is not in RUN asks for its grant first and trains when it has woken (R233, R241). Command
sequences, windows and queued words go on (DESIGN CHOICE, log 16). -/
def State.train (s : State) (t : TrkId) : State :=
  let s1 := s.onTrk t (fun k => { k with
    failed := false, discs := 0, relocking := false, burst := none, linkq := [] })
  if s.cres.season = .winter then s1
  else if s.powerOf (rqTrk t) = .run then (s1.onTrk t (fun k => { k with link := .train })).fixZones
  else (s1.askGrant (rqTrk t)).fixZones

/-- A RELINK starts its bring-up: CONC_LOST_MAP clears (Table 03-11), and the engine goes through DOWN to TRAIN. -/
def State.relinkStart (s : State) (t : TrkId) : State :=
  (s.onTrk t (fun k => { k with relink := true, relinkHeld := false, concLost := 0, link := .down })).train t

/-- The bring-up of a RELINK has ended: RELINK clears, or the held one starts without a gap (R14). -/
def State.relinkEnd (s : State) (t : TrkId) : State :=
  if s.trk[t].relinkHeld then s.relinkStart t else s.onTrk t (fun k => { k with relink := false })

/-- Bring-up fails: DISC_FAIL, DOWN with nothing queued for the link (R49). -/
def State.discFail (s : State) (t : TrkId) : State :=
  ((((s.onTrk t (fun k => { k with link := .down, failed := true, linkq := [] })).evTrk t .discFail).detect .discFail t.val 0
    ).fixZones).relinkEnd t

/-- A DISC with INDEX 0 queued. -/
def State.sendDisc (s : State) (t : TrkId) : State :=
  s.onTrk t (fun k => { k with discs := k.discs + 1, linkq := k.linkq ++ [.disc 0] })

/-- ENABLE set: bring-up starts (R49). -/
def State.trkEnable (s : State) (t : TrkId) : State :=
  if s.populated t && !s.trk[t].enable then
    let s1 := s.onTrk t (fun k => { k with enable := true })
    if s1.trk[t].link = .down then s1.train t else s1
  else s

/-- The engine switched off: DOWN, its downlink static, OFF without its grant (R241). -/
def State.engineOff (s : State) (t : TrkId) : State :=
  ((s.onTrk t (fun k => { k with
    link := .down, burst := none, relocking := false, linkq := [], relink := false, relinkHeld := false })).setPower (rqTrk t)
      .off).dropGrant (rqTrk t)

/-- ENABLE cleared: the engine stops (DESIGN CHOICE, log 15). -/
def State.trkDisable (s : State) (t : TrkId) : State :=
  let s1 := s.onTrk t (fun k => { k with enable := false })
  if s1.trk[t].link = .tacet then s1 else (s1.engineOff t).fixZones

/-- RELINK: accepted only while ZONE_n is low (R49), and only by an enabled engine outside TACET: with ENABLE clear it is
ignored and CONC_LOST_MAP stays (DESIGN CHOICE, log 15); while an earlier RELINK runs it is held until that one ends (R14). -/
def State.trkRelink (s : State) (t : TrkId) : State :=
  if s.populated t && !s.gov.zone.getLsbD t.val && s.trk[t].enable && s.trk[t].link != .tacet then
    if s.trk[t].relink then s.onTrk t (fun k => { k with relinkHeld := true }) else s.relinkStart t
  else s

def execTrkEnable (t : TrkId) (s : State) : Out := .next ((s.stewWrite (blkTrk t)).trkEnable t)

def execTrkRelink (t : TrkId) (s : State) : Out := .next ((s.stewWrite (blkTrk t)).trkRelink t)

/-- LOOPBACK acts in DISARMED only (Table 03-11): the receiver hears the engine's own transmitter, whose characters lock it and
hold no set of the uplink (log 15). -/
def State.looped (s : State) (t : TrkId) : Bool := s.trk[t].loopback && s.gov.state == .disarmed

/-- Table 03-2: at lock the engine enters DISCOVER and sends DISC; without lock at 3.5 ms it fails. -/
def execUplinkLock (t : TrkId) (locked : Bool) (s : State) : Out :=
  if s.trk[t].link = .train then
    if locked || s.looped t then .next ((s.onTrk t (fun k => { k with link := .discover })).sendDisc t)
    else .next (s.discFail t)
  else .next s

/-- The trailing CRC-16 of an ordered set covers the type byte and the payload (R43). -/
def setOk (bytes : List Byte) (crc : BitVec 16) (viol : Bool) : Bool := !viol && crc16 bytes == crc

/-- DISC_END: UP with CONC_FOUND; a COUNT other than CONC_EXPECT sets DISC_MISMATCH (R49). CONC_FOUND keeps the low six bits of
a COUNT above 63, of which the spec says nothing (DESIGN CHOICE, log 15). -/
def execDiscEnd (t : TrkId) (count : Byte) (crc : BitVec 16) (viol : Bool) (s : State) : Out :=
  if setOk [0x45, count, 0] crc viol && s.trk[t].link == .discover && !s.looped t then
    let s1 := s.onTrk t (fun k => { k with link := .up, concFound := count.setWidth 6, discs := 0 })
    let s2 := s1.onGov (fun g => { g with trainedSince := g.trainedSince ||| oneHot 16 t.val })
    let s3 := if count.toNat = s2.trk[t].concExpect.toNat then s2
      else (s2.evTrk t .discMismatch).detect .discMismatch t.val (count.setWidth 32)
    .next (s3.fixZones.relinkEnd t)
  else .next s

/-- No DISC_END within 1 ms: DISC is repeated up to three times, then DISC_FAIL (R49). -/
def execDiscTimeout (t : TrkId) (s : State) : Out :=
  if s.trk[t].link = .discover then
    if s.trk[t].discs < 4 then .next (s.sendDisc t) else .next (s.discFail t)
  else .next s

/-! ## NAKs (R58) -/

/-- A NAK naming (CONC, BSEQ), at most MAX_NAK for a burst in a frame. -/
def State.nak (s : State) (t : TrkId) (conc : BitVec 5) (bseq reason : Byte) : State :=
  let k := s.trk[t]
  let cs := getN k.conc conc.toNat .reset
  let sent := ((cs.naks.find? (fun p => p.1 == bseq)).map (·.2)).getD 0
  if sent < k.maxNak.toNat ∧ s.metr.openAt.isSome then
    let naks := (bseq, sent + 1) :: cs.naks.filter (fun p => p.1 != bseq)
    (s.onTrk t (fun k => { k with
      conc := updN k.conc conc.toNat (fun c => { c with naks := naks })
      linkq := k.linkq ++ [.nak conc bseq (s.metr.frameNow.setWidth 8) reason] })).cntTrk t .nakSent
  else s

/-! ## Acknowledgement (R66, R67) -/

/-- The window after an acknowledgement of every sequence up to one. -/
def ackWindow (win : List Unacked) (seq : Byte) : List Unacked :=
  if win.any (fun u => cmdSeq u.word == seq) then (win.dropWhile (fun u => cmdSeq u.word != seq)).drop 1 else win

/-- Unicast sequences of a concentrator acknowledged up to `seq`. -/
def State.ackUnicast (s : State) (t : TrkId) (conc : BitVec 5) (seq : Byte) : State :=
  s.onTrk t (fun k => { k with conc := updN k.conc conc.toNat (fun c => { c with win := ackWindow c.win seq }) })

/-- Broadcast sequences acknowledged by a concentrator up to `seq`; a word leaves the window once every present concentrator
not lost has acknowledged it (log 16). -/
def State.ackBroadcast (s : State) (t : TrkId) (conc : BitVec 5) (seq : Byte) : State :=
  let k := s.trk[t]
  if k.winB.any (fun u => cmdSeq u.word == seq) then
    let upTo := (k.winB.takeWhile (fun u => cmdSeq u.word != seq)).length + 1
    let marked := (k.winB.take upTo).map (fun u => { u with acked := u.acked ||| oneHot 32 conc.toNat }) ++ k.winB.drop upTo
    let need := s.presentMask t &&& ~~~ k.concLost
    s.onTrk t (fun k => { k with winB := marked.filter (fun u => (need &&& ~~~ u.acked) != 0) })
  else s

/-- CACK: a set with a wrong CRC or a violation is treated as never sent (R43); it acknowledges L and LB (R66). A CONC byte of 32
or more names no concentrator, and the set is ignored (DESIGN CHOICE, log 15). -/
def execCack (t : TrkId) (conc : Byte) (seq : Byte) (bseqB : Byte) (status : Byte) (crc : BitVec 16) (viol : Bool)
    (s : State) : Out :=
  if setOk [0x41, conc, seq, bseqB, status] crc viol && s.trk[t].link == .up && !s.looped t && decide (conc.toNat < 32) then
    .next ((s.ackUnicast t (conc.setWidth 5) seq).ackBroadcast t (conc.setWidth 5) bseqB)
  else .next s

/-! ## Bursts and records (R54 to R58) -/

/-- Burst header fields (Table 03-4). -/
def hdrConc (h : BitVec 64) : BitVec 5 := field h 0 5
def hdrLast (h : BitVec 64) : Bool := h.getLsbD 5
def hdrCount (h : BitVec 64) : Byte := field h 8 8
def hdrFrame (h : BitVec 64) : BitVec 16 := field h 16 16
def hdrBseq (h : BitVec 64) : Byte := field h 32 8
def hdrFirst (h : BitVec 64) : Byte := field h 40 8
def hdrCmdSeq (h : BitVec 64) : Byte := field h 48 8

/-- The engine takes uplink data: UP and locked, its receiver on the line. -/
def State.receiving (s : State) (t : TrkId) : Bool := s.trk[t].link == .up && !s.trk[t].relocking && !s.looped t

/-- A burst header: check 1 of Table 03-6, the acknowledgement of CMD_SEQ (R66), and the gap NAK (R58). A status burst, which
repeats the last BSEQ, moves neither the expected BSEQ nor LAST (Table 03-4). -/
def execBurstHeader (t : TrkId) (hdr : BitVec 64) (crc : BitVec 16) (s : State) : Out :=
  if !s.receiving t then .next s
  else
    let bytes := bytesOf 8 hdr
    if crc16 bytes == crc && decide ((hdrCount hdr).toNat ≤ 64)
        && decide ((hdrFirst hdr).toNat + (hdrCount hdr).toNat ≤ 256) then
      let conc := hdrConc hdr
      let reg := crc32cRun 0xFFFFFFFF (bytes ++ bytesOf 2 crc)
      let s1 := (s.onTrk t (fun k => { k with burst := some ⟨hdr, 0, reg, false⟩ })).ackUnicast t conc (hdrCmdSeq hdr)
      if hdrFrame hdr = s.metr.frameNow && s.metr.openAt.isSome then
        let next := (getN s.trk[t].conc conc.toNat .reset).nextBseq
        let s2 := if next < hdrBseq hdr then s1.nak t conc next 2 else s1
        if hdrCount hdr = 0 then .next s2
        else .next (s2.onTrk t (fun k => { k with conc := updN k.conc conc.toNat (fun c => { c with
          nextBseq := if c.nextBseq ≤ hdrBseq hdr then hdrBseq hdr + 1 else c.nextBseq
          lastSeen := c.lastSeen || hdrLast hdr }) }))
      else .next s1
    else .next ((s.onTrk t (fun k => { k with burst := none })).cntTrk t .hdrErr)

/-- Record fields (Table 03-5). -/
def recVcell (r : Native) : BitVec 20 := field r 0 20
def recIcell (r : Native) : BitVec 24 := field r 20 24
def recTcell (r : Native) : BitVec 12 := field r 44 12
def recMode (r : Native) : BitVec 3 := field r 56 3
def recEnergized (r : Native) : Bool := r.getLsbD 59
def recUrgent (r : Native) : Bool := r.getLsbD 60
def recSeq (r : Native) : Byte := field r 96 8
def recSlot (r : Native) : Byte := field r 104 8
def recCrcOk (r : Native) : Bool := crc16Word r == field r 112 16

/-- The channel id: trunk, concentrator, slot (R54). -/
def channelId (t : TrkId) (conc : BitVec 5) (slot : Byte) : Nat := t.val * 8192 + conc.toNat * 256 + slot.toNat

/-- The Sentinel's causes: VMAX, VMIN, TMAX, URGENT in bits 0 to 3 (R60). -/
def sentinelCauses (k : Trunk) (cls : BitVec 4) (r : Native) : BitVec 4 :=
  let vmax := getN k.sentVmax cls.toNat 0
  let vmin := getN k.sentVmin cls.toNat 0
  let tmax := getN k.sentTmax cls.toNat 0
  place 4 0 (bit (decide (vmax < recVcell r))) |||
  place 4 1 (bit (recEnergized r && decide (recVcell r < vmin))) |||
  place 4 2 (bit (decide (tmax.toInt < (recTcell r).toInt))) |||
  place 4 3 (bit (recUrgent r))

/-- The urgent command of a firing: a DE-ENERGIZE, or one ZONE_OFF for the concentrator when 16 or more urgent words wait, once
a frame; later firings of that concentrator queue nothing (R61, R62). -/
def State.urgentCommand (s : State) (t : TrkId) (conc : BitVec 5) (slot : Byte) (cls : BitVec 4) : State :=
  let k := s.trk[t]
  if (getN k.conc conc.toNat .reset).coalesced then s
  else if 16 ≤ k.queuedIn .urgent then
    ((s.onTrk t (fun k => { k with
      conc := updN k.conc conc.toNat (fun c => { c with coalesced := true })
      txq := k.txq ++ [⟨hwWord s 0 conc 6 0 false, .urgent, none, none⟩] })).evTrk t .coalesced).cntTrk t .coalesce
  else s.queueWord t ⟨hwWord s slot conc 1 cls false, .urgent, none, none⟩

/-- A firing: counted, logged, its events and report, and the urgent command (R60, R61). -/
def State.sentinelFire (s : State) (t : TrkId) (conc : BitVec 5) (slot : Byte) (cls : BitVec 4) (causes : BitVec 4) : State :=
  let limit := causes &&& 7 != 0
  let urgent := causes.getLsbD 3
  let ch := channelId t conc slot
  let entry : Native := place 128 0 (BitVec.ofNat 17 ch) ||| place 128 20 causes ||| place 128 32 s.metr.frameNow |||
    place 128 64 s.metr.lineTime
  let s1 := s.when limit (fun s => (s.cntTrk t .sentinel).evTrk t .sentinel)
  let s2 := s1.when urgent (fun s => (s.cntTrk t .urgent).evTrk t .urgent)
  let s3 := s2.onTrk t (fun k => { k with urgLog := k.urgLog.push 16 entry })
  (s3.detect .sentinelTrip t.val (BitVec.ofNat 32 ch)).urgentCommand t conc slot cls

/-- A record against the checks of Table 03-6 in order; `pos` its position in the burst. -/
def State.takeRecord (s : State) (t : TrkId) (hdr : BitVec 64) (pos : Nat) (rec : Native) (viol : Bool) : State :=
  let conc := hdrConc hdr
  let slot := recSlot rec
  let ch := channelId t conc slot
  if viol then s.cntTrk t .codeErr
  else if !recCrcOk rec then s.cntTrk t .crc16Err
  else
    let entry := s.routeEntry t conc
    let s := s.routeUse t conc
    if !entry.getLsbD 64 || slot.toNat != (hdrFirst hdr).toNat + pos then
      ((s.cntTrk t .misroute).evTrk t .misroute).detect .misroute t.val (BitVec.ofNat 32 ch)
    else if s.metr.openAt.isNone || hdrFrame hdr != s.metr.frameNow then s.cntTrk t .lateRec
    else
      let key : BitVec 13 := BitVec.ofNat 13 (conc.toNat * 256 + slot.toNat)
      let cls := field entry (4 * (slot.toNat / 16)) 4
      let causes := sentinelCauses s.trk[t] cls rec
      let fire := fun (s : State) => s.when (causes != 0) (·.sentinelFire t conc slot cls causes)
      match s.trk[t].written.find? (fun p => p.1 == key) with
      | some p =>
        if p.2 = recSeq rec then s.cntTrk t .dupRec
        else fire (((s.cntTrk t .seqConflict).evTrk t .seqConflict).detect .seqConflict t.val (BitVec.ofNat 32 ch))
      | none =>
        let s1 := s.storeWord ⟨.score s.metr.openBuf, ch⟩ rec false
        let s2 := s1.onTrk t (fun k => { k with written := (key, recSeq rec) :: k.written })
        fire (s2.cntRxRec t)

/-- The next record of the burst completes (R54). -/
def execRecordArrival (t : TrkId) (rec : Native) (viol : Bool) (s : State) : Out :=
  match s.trk[t].burst with
  | some b =>
    if s.receiving t && decide (b.pos < (hdrCount b.hdr).toNat) then
      let s1 := s.takeRecord t b.hdr b.pos rec viol
      .next (s1.onTrk t (fun k => { k with
        burst := some { b with pos := b.pos + 1, crc := crc32cRun b.crc (bytesOf 16 rec), viol := b.viol || viol } }))
    else .next s
  | none => .next s

/-- The burst ends: its CRC-32C is checked, and a failure or a code violation causes a NAK (R56, R58). -/
def execBurstEnd (t : TrkId) (crc : Word) (viol : Bool) (s : State) : Out :=
  match s.trk[t].burst with
  | some b =>
    if s.receiving t then
      let bad := (~~~ b.crc) != crc
      let v := b.viol || viol
      let s1 := (s.onTrk t (fun k => { k with burst := none })).when bad (·.cntTrk t .crc32Err)
      if (bad || v) && hdrFrame b.hdr == s.metr.frameNow then
        .next (s1.nak t (hdrConc b.hdr) (hdrBseq b.hdr) (if v then 4 else 1))
      else .next s1
    else .next s
  | none => .next s

/-! ## Command transmission (R25, R45, R65, R67, R213) -/

/-- A word with SEQ and CRC-16 (R65, R213). -/
def sealWord (w : Native) (seq : Byte) : Native :=
  let w1 := putField w 72 seq
  putField w1 112 (crc16Word w1)

/-- The concentrator window can take a word other than protective (R67). -/
def openWindow (win : List Unacked) : Bool :=
  decide (win.length < 127) && decide ((win.filter (fun u => !protective u.word)).length < 64)

/-- What the stage can send next, without the link control sets. -/
inductive TxChoice where
  | resend (conc : BitVec 5) (i : Nat)
  | resendB (i : Nat)
  | fresh (i : Nat)
deriving DecidableEq, Repr

/-- A queued word may leave now: a broadcast finds its window of 8 open; a unicast word other than protective finds its
window open (R67). -/
def Trunk.ready (k : Trunk) (w : TxWord) : Bool :=
  if cmdAll w.word then decide (k.winB.length < 8)
  else protective w.word || openWindow (getN k.conc (cmdConc w.word).toNat .reset).win

/-- The first word of a class to leave: retransmissions first, then queued words in release order (R25). Among retransmissions
of one class R68 orders those of one concentrator only; broadcasts go first, then rising concentrators (DESIGN CHOICE, log 62). -/
def Trunk.choose (k : Trunk) (c : TxClass) : Option TxChoice :=
  match k.winB.findIdx? (fun u => u.resend && u.cls == c) with
  | some i => some (.resendB i)
  | none =>
    match (List.range 32).findSome? (fun j =>
        ((getN k.conc j .reset).win.findIdx? (fun u => u.resend && u.cls == c)).map (fun i =>
          TxChoice.resend (BitVec.ofNat 5 j) i)) with
    | some x => some x
    | none => (k.txq.findIdx? (fun w => w.cls == c && k.ready w)).map .fresh

/-- The bytes after K28.5 of an ordered set: its type byte, its payload, and the CRC-16 over both (R43, Table 03-1); of a command
word the 16 bytes between its start and end characters. -/
def DownSet.bytes (d : DownSet) : List Byte :=
  let framed := fun (bs : List Byte) => bs ++ bytesOf 2 (crc16 bs)
  match d with
  | .idle => [0x50]
  | .fm f sel => framed ([0x46] ++ bytesOf 2 f ++ [sel.setWidth 8, 0])
  | .hb f lt e hbf => framed ([0x48] ++ bytesOf 2 f ++ bytesOf 6 lt ++ [e, hbf])
  | .nak c b f r => framed [0x4E, c.setWidth 8, b, f, r]
  | .disc i => framed [0x44, i, 0]
  | .cmd w => bytesOf 16 w

/-- The bytes the downlink sent in the last step that sent anything, without its K characters (Table 03-1). -/
def Trunk.wire (k : Trunk) : List Byte := (k.out.map DownSet.bytes).flatten

/-- What the downlink sends. -/
def State.putOut (s : State) (t : TrkId) (d : DownSet) : State := s.onTrk t (fun k => { k with out := [d] })

/-- A word sent again, unchanged. -/
def resent (u : Unacked) : Unacked := { u with resend := false }

/-- A queued word that leaves: it takes the next sequence, joins its window, and its staging entry is free. A protective word
that finds 127 positions in use becomes one ZONE_OFF, and the concentrator's other queued protective words of the same release
are discarded; once that ZONE_OFF is outstanding the word is covered by it (R67, log 16). -/
def State.sendFresh (s : State) (t : TrkId) (i : Nat) : State :=
  match s.trk[t].txq[i]? with
  | none => s
  | some w =>
    let drop := fun (k : Trunk) => { k with txq := k.txq.eraseIdx i }
    if cmdAll w.word then
      let x := sealWord w.word s.trk[t].nextSeqB
      ((s.onTrk t (fun k => { drop k with
        nextSeqB := k.nextSeqB + 1, winB := k.winB ++ [⟨x, w.cls, 0, false, 0⟩] })).putOut t (.cmd x)).cntTxCmd t
    else
      let conc := cmdConc w.word
      let cs := getN s.trk[t].conc conc.toNat .reset
      let emit := fun (s : State) (word : Native) =>
        let x := sealWord word cs.nextSeq
        ((s.onTrk t (fun k => { k with
          conc := updN k.conc conc.toNat (fun c => { c with
            nextSeq := c.nextSeq + 1, win := c.win ++ [⟨x, w.cls, 0, false, 0⟩] }) })).putOut t (.cmd x)).cntTxCmd t
      if cs.win.length < 127 ∨ (cmdOpcode w.word = .zoneOff ∧ cs.win.length < 128) then emit (s.onTrk t drop) w.word
      else
        let same := fun (x : TxWord) => protective x.word && !cmdAll x.word && cmdConc x.word == conc && x.range == w.range
          && x.owner == w.owner && field x.word 88 8 == field w.word 88 8 && !cmdHw x.word
        let s1 := (s.onTrk t (fun k => let k1 := drop k; { k1 with txq := k1.txq.filter (fun x => !same x) })).cntTrk t .coalesce
        if cs.win.length < 128 then emit s1 (hwWord s 0 conc 6 0 false) else s1

/-- The downlink runs: an enabled engine in TRAIN, DISCOVER or UP, or one whose lost link keeps its veto (Table 03-10). -/
def State.sends (s : State) (t : TrkId) : Bool :=
  let k := s.trk[t]
  k.enable && (k.link == .train || k.link == .discover || k.link == .up ||
    (k.link == .down && k.veto && s.powerOf (rqTrk t) == .run))

/-- COMMAND_TRANSMIT: urgent, then protective, then link control, then other words, and IDLE when there is nothing else (R25,
R44, R45). In TRAIN nothing but IDLE leaves, in DISCOVER link control only (Table 03-2); the downlink of a lost link sends what
is queued, the ZONE_OFF of R69 among it (log 15). A read-back mismatch raises TRK_ENGINE (R213). -/
def State.transmit (s : State) (t : TrkId) : State :=
  let k := s.trk[t]
  let act : TxChoice → State := fun
    | .resendB i => match k.winB[i]? with
      | some u => (((s.onTrk t (fun k => { k with winB := k.winB.modify i resent })).putOut t (.cmd u.word)).cntTxCmd t)
      | none => s
    | .resend c i => match (getN k.conc c.toNat .reset).win[i]? with
      | some u => (((s.onTrk t (fun k => { k with
          conc := updN k.conc c.toNat (fun x => { x with win := x.win.modify i resent }) })).putOut t (.cmd u.word)).cntTxCmd t)
      | none => s
    | .fresh i => s.sendFresh t i
  let sendLink := match k.linkq with
    | d :: rest => some ((s.onTrk t (fun k => { k with linkq := rest })).putOut t d)
    | [] => none
  if !s.sends t then s
  else if k.link = .train then s.putOut t .idle
  else if k.link = .discover then sendLink.getD (s.putOut t .idle)
  else
    match k.choose .urgent with
    | some c => act c
    | none =>
      match k.choose .protective with
      | some c => act c
      | none =>
        match sendLink with
        | some s' => s'
        | none =>
          match k.choose .other with
          | some c => act c
          | none => s.putOut t .idle

def execCommandTransmit (t : TrkId) (readback : Bool) (s : State) : Out :=
  let s1 := s.transmit t
  let sent := match s1.trk[t].out with | [.cmd _] => s.sends t && s.trk[t].link != .train && s.trk[t].link != .discover | _ => false
  .next (s1.when (!readback && sent) (fun s => (s.evTrk t .engineFault).detect .trkEngine t.val 0))

/-- The engine marks a concentrator lost and discards its outstanding commands (R68). -/
def State.concLost (s : State) (t : TrkId) (conc : BitVec 5) : State :=
  ((s.onTrk t (fun k => { k with
    concLost := k.concLost ||| oneHot 32 conc.toNat
    conc := updN k.conc conc.toNat (fun c => { c with win := [] }) })).evTrk t .concLost).detect .concLost t.val
      (conc.setWidth 32)

/-- A word marked for retransmission. -/
def again (u : Unacked) : Unacked := { u with retries := u.retries + 1, resend := true }

/-- Unacknowledged at the second HB: every unacknowledged command of the concentrator is sent again; after three
retransmissions the concentrator is lost (R68). A broadcast word has one count of retransmissions, to which the timeout of any
concentrator adds, and its whole window is sent again (DESIGN CHOICE, log 16). -/
def execCmdAckTimeout (t : TrkId) (conc : BitVec 5) (bcast : Bool) (s : State) : Out :=
  if bcast then
    match s.trk[t].winB with
    | [] => .next s
    | u :: _ =>
      if u.retries < 3 then
        .next ((s.onTrk t (fun k => { k with winB := k.winB.map again })).cntTrk t .retxCmd s.trk[t].winB.length)
      else
        let s1 := s.concLost t conc
        let need := s1.presentMask t &&& ~~~ s1.trk[t].concLost
        .next (s1.onTrk t (fun k => { k with winB := k.winB.filter (fun u => (need &&& ~~~ u.acked) != 0) }))
  else
    match (getN s.trk[t].conc conc.toNat .reset).win with
    | [] => .next s
    | u :: rest =>
      if u.retries < 3 then
        .next ((s.onTrk t (fun k => { k with
          conc := updN k.conc conc.toNat (fun c => { c with win := c.win.map again }) })).cntTrk t .retxCmd (rest.length + 1))
      else .next (s.concLost t conc)

/-! ## Link faults (Table 03-10) -/

def execTrkLinkDown (t : TrkId) (s : State) : Out :=
  if s.receiving t then
    .next (((s.onTrk t (fun k => { k with relocking := true, burst := none })).evTrk t .linkDown).detect .trkLinkDown t.val 0)
  else .next s

def execTrkRelock (t : TrkId) (s : State) : Out :=
  if s.trk[t].relocking then .next (s.onTrk t (fun k => { k with relocking := false })) else .next s

def execTrkLinkLost (t : TrkId) (s : State) : Out :=
  if s.trk[t].relocking then
    .next (((s.onTrk t (fun k => { k with relocking := false, link := .down, veto := true, burst := none, linkq := [] })).detect
      .trkLinkLost t.val 0).fixZones)
  else .next s

/-- The engine in TACET: ENGINE_FAULT is set, its downlink stops, its zone drops, its queued words are discarded (R70). -/
def State.engineTacet (s : State) (t : TrkId) : State :=
  let n := s.trk[t].txq.length
  (((s.onTrk t (fun k => { k with
    link := .tacet, burst := none, relocking := false, txq := [], linkq := [], relink := false, relinkHeld := false })).cntGov
      .tacet n).evTrk t .engineFault).fixZones

def execUrgLogPop (t : TrkId) (i : Initiator) (s : State) : Out :=
  .next (popAnswer s i (blkTrk t) s.trk[t].urgLog (s.onTrk t (fun k => { k with urgLog := k.urgLog.pop })))

end Sys2Proof.Machine
end

