-- ==== Sys2Proof/Machine/Chord.lean ====
section
/-!
DEFINITION. Chord (08): the caches (Tables 08-2, 08-3), the accesses of the cores to lines, the homes with both trackers (Table
08-4, R185 to R193), dead agents (R195, R196), flushes and modes (R191, R192, R197, R198).
-/
namespace Sys2Proof.Machine

/-! ## Messages -/

/-- A message sent. -/
def State.send (s : State) (m : CohMsg) : State := s.onChord (fun c => { c with net := c.net ++ [m] })

/-- The virtual channel of a message (R178, Table 08-1): its class, its sender and its receiver; homes are 16 to 19. -/
def CohMsg.channel (m : CohMsg) : Nat × Nat × Nat :=
  let home := fun (l : Line) => 16 + (homeOf l).val
  match m with
  | .ask _ a l _ => (0, a.val, home l)
  | .probe _ c l => (1, home l, c.val)
  | .ackGone c l _ | .ackKept c l => (2, c.val, home l)
  | .ackDone a l => (2, home l, a.val)
  | .ackStale c l => (2, home l, c.val)
  | .carryGrant a l _ _ _ _ => (3, home l, a.val)
  | .carryDirty c l _ _ _ => (3, c.val, home l)
  | .carryPut a l _ _ _ => (3, a.val, home l)

/-- A message is the next of its channel: messages of one class between two endpoints arrive in the order sent (R179). A message
that no unit of the model has sent comes from a unit that caches nothing. -/
def State.ready (s : State) (m : CohMsg) : Bool :=
  match s.chord.net.find? (fun x => x.channel == m.channel) with
  | some x => x == m || !s.chord.net.contains m
  | none => true

/-- A message that reaches its receiver leaves the channel. -/
def State.take (s : State) (m : CohMsg) : State := s.onChord (fun c => { c with net := c.net.erase m })

/-- A message reaches its receiver, which handles it; while an older one of its channel is on its way it waits (R179). -/
def State.receive (s : State) (m : CohMsg) (go : State → State) : State := if s.ready m then go (s.take m) else s

/-- A message that cannot occur, or belongs to no transaction: COH_PROTO (R183, R185). -/
def State.proto (s : State) (l : Line) : State :=
  (s.evChord .proto).detect .cohProto (homeOf l).val (BitVec.ofNat 32 (lineAddr l))

/-! ## L1D lines -/

/-- A state that holds a way of the L1D. -/
def CState.inWay : CState → Bool
  | .s | .e | .m | .isD | .imD | .smD => true
  | .miA | .ciA | .iiA => false

/-- A stable state: the line may be a victim (R182). -/
def CState.stable : CState → Bool
  | .s | .e | .m => true
  | _ => false

/-- Requests outstanding of a cache: its lines in a transient state (R167: at most four). -/
def State.l1Busy (s : State) (c : Cl) : Nat := (s.chord.l1d[c].filter (fun x => !x.st.stable)).length

/-- A load finds its data (Table 08-2). -/
def CState.loadHit : CState → Bool
  | .s | .e | .m | .smD => true
  | _ => false

/-- A store or atomic performs (Table 08-2). -/
def CState.storeHit : CState → Bool
  | .e | .m => true
  | _ => false

/-- A replacement: RetireDirty with its CarryPut from M, RetireClean from S or E (Table 08-2). -/
def State.retire (s : State) (c : Cl) (x : L1Line) : State :=
  match x.st with
  | .m => (((s.l1Put c { x with st := .miA }).send (.ask .retireDirty (agentOf c) x.line x.way)).send
      (.carryPut (agentOf c) x.line x.data x.poison 15)).noteL1Line c x
  | _ => (s.l1Put c { x with st := .ciA }).send (.ask .retireClean (agentOf c) x.line x.way)

/-- A request for a line, with the access that waits for it; none while the cache cannot send one (R167, R182). -/
def State.request (s : State) (c : Cl) (l : Line) (excl : Bool) (w : CacheWait) : Option State :=
  if 4 ≤ s.l1Busy c then none
  else match s.l1 c l with
  | some x =>
    if x.st = .s && excl then
      some ((s.l1Put c { x with st := .smD, wait := some w }).send (.ask .upgrade (agentOf c) l x.way))
    else none
  | none =>
    let inSet := s.chord.l1d[c].filter (fun x => l1Set x.line == l1Set l && x.st.inWay)
    let ask := fun (s : State) (way : BitVec 2) =>
      (s.l1Put c ⟨l, way, if excl then .imD else .isD, lineCells 0 0, false, some w, none⟩).send
        (.ask (if excl then .own else .share) (agentOf c) l way)
    match ([0, 1, 2, 3] : List (BitVec 2)).find? (fun y => !inSet.any (fun x => x.way == y)) with
    | some y => some (ask s y)
    | none =>
      let start := Config.victimWay s.free
      match ([start, start + 1, start + 2, start + 3] : List (BitVec 2)).findSome? (fun y =>
          inSet.find? (fun x => x.way == y && x.st.stable)) with
      | some v => if 3 ≤ s.l1Busy c then none else some (ask (s.retire c v).fresh v.way)
      | none => none

/-! ## Accesses of the cores to Chord -/

/-- Bytes of a scalar load. -/
def LoadKind.bytes : LoadKind → Nat
  | .lb | .lbu => 1 | .lh | .lhu => 2 | .lw => 4

/-- A scalar load's register value (Table 06-3). -/
def LoadKind.extend (k : LoadKind) (v : Native) : Word :=
  match k with
  | .lb => ((v.setWidth 8) : BitVec 8).signExtend 32
  | .lbu => ((v.setWidth 8) : BitVec 8).setWidth 32
  | .lh => ((v.setWidth 16) : BitVec 16).signExtend 32
  | .lhu => ((v.setWidth 16) : BitVec 16).setWidth 32
  | .lw => v.setWidth 32

/-- Bytes of an access, and whether it needs the line in E or M. -/
def CacheOp.bytes : CacheOp → Nat
  | .load k _ => k.bytes
  | .lane _ => 16
  | .store n _ _ _ => n
  | .atomic .. => 4
def CacheOp.excl : CacheOp → Bool
  | .load .. | .lane .. => false
  | .store .. | .atomic .. => true

/-- An access that has performed nothing yet. -/
def CacheOp.start (op : CacheOp) (a : Word) : CacheWait := ⟨op, a, 0, 0, false⟩

/-- The next byte of an access, its line, and how many of its bytes lie in that line. -/
def CacheWait.next (w : CacheWait) : Nat := w.addr.toNat + w.done
def CacheWait.line (w : CacheWait) : Line := lineOf w.next
def CacheWait.part (w : CacheWait) : Nat := min (w.op.bytes - w.done) (64 - w.next % 64)

/-- The access can perform on its next line (Table 08-2). -/
def State.lineHit (s : State) (c : Cl) (w : CacheWait) : Bool :=
  match s.l1 c w.line with
  | some x => if w.op.excl then x.st.storeHit else x.st.loadHit
  | none => false

/-- The L1D word of an address. -/
def State.l1Word (s : State) (c : Cl) (a : Nat) : Native × Bool :=
  match s.l1 c (lineOf a) with
  | some x => (getN x.words (a / 16 % 4) zeroCell).deliver
  | none => (0, true)

/-- The accounting of a read of that word. -/
def State.noteL1At (s : State) (c : Cl) (a : Nat) : State :=
  match s.l1 c (lineOf a) with
  | some x => s.noteL1 c x (a / 16 % 4)
  | none => s

/-- Bytes read from the L1D, and the accounting of the words they lie in. -/
def State.l1Bytes (s : State) (c : Cl) (a n : Nat) : State × Native × Bool :=
  let b := a % 16
  let w0 := s.l1Word c a
  if b + n ≤ 16 then (s.noteL1At c a, (w0.1 >>> (8 * b)) &&& byteMask 0 n, w0.2)
  else
    let w1 := s.l1Word c (a + n - 1)
    ((s.noteL1At c a).noteL1At c (a + n - 1), ((w0.1 >>> (8 * b)) ||| (w1.1 <<< (8 * (16 - b)))) &&& byteMask 0 n, w0.2 || w1.2)

/-- A held line moves to M. -/
def State.l1Own (s : State) (c : Cl) (l : Line) : State :=
  match s.l1 c l with
  | some x => s.l1Put c { x with st := .m }
  | none => s

/-- A word of a held line written: the line moves to M. -/
def State.l1Write (s : State) (c : Cl) (a : Nat) (w : Native) (poison : Bool) : State :=
  match s.l1 c (lineOf a) with
  | some x => s.l1Put c { x with st := .m, words := updN x.words (a / 16 % 4) (fun _ => Cell.store w poison) }
  | none => s

/-- A store into a held line, as R85 and R86 state it for a stored word: a narrow part reads its word first, and one that finds it
uncorrectable or poisoned changes nothing, is logged (log 12) and ends in an error. -/
def State.l1Store (s : State) (c : Cl) (a n : Nat) (data : Native) (poison : Bool) : State × Bool :=
  let parts : List StorePart := Sys2Proof.Machine.storeParts .chord (a - 0x10000000) n data
  let at' : StorePart → Nat := fun p => 0x10000000 + 16 * p.loc.idx
  let narrow := parts.filter (fun p => p.mask != BitVec.allOnes 128)
  let s1 := s.each narrow (fun p t =>
    let t1 := t.noteL1At c (at' p)
    match t.l1 c (lineOf (at' p)) with
    | some x =>
      let i := at' p / 16 % 4
      t1.when (decodeSyndrome (getN x.words i zeroCell).syn == .poisoned) (fun t =>
        t.addUe (memLogEntry t (BitVec.ofNat 24 ((l1Set x.line * 4 + x.way.toNat) * 4 + i))
          (if c = stw then 0x04 else BitVec.ofNat 8 (0x13 + 4 * c.val)) 0x1FF 3 (initOf c).code))
    | none => t1)
  if narrow.any (fun p => (s.l1Word c (at' p)).2) then (s1, true)
  else (s1.each parts (fun p t =>
    t.l1Write c (at' p) (mergeStore .write (t.l1Word c (at' p)).1 p.part p.mask) poison), false)

/-- The new value of an atomic (R148). -/
def AtomicOp.apply (op : AtomicOp) (old src cmp : Word) : Option Word :=
  match op with
  | .swp => some src
  | .add => some (old + src)
  | .and => some (old &&& src)
  | .or => some (old ||| src)
  | .xor => some (old ^^^ src)
  | .cas => if old = cmp then some src else none

/-- The position of the egress hold of the store to an address that left it last. -/
def Core.lastOut (k : Core) (a : Word) : Option Nat :=
  ((k.egress.zipIdx.filter (fun x => x.1.released &&
    (match x.1.op with | .store b _ _ _ => b == a | _ => false))).getLast?).map (·.2)

/-- A store that had left the egress hold ends in an error. -/
def State.egressError (s : State) (c : Cl) (a : Word) : State :=
  s.onCore c (fun k =>
    match k.lastOut a with
    | some i => { k with egress := k.egress.modify i (fun e => { e with error := true }) }
    | none => k)

/-- A store that had left the egress hold and finds no free request is held again. -/
def State.egressBack (s : State) (c : Cl) (a : Word) : State :=
  s.onCore c (fun k =>
    match k.lastOut a with
    | some i => { k with egress := k.egress.modify i (fun e => { e with released := false }) }
    | none => k)

/-- An access performs on the line it holds: what it reads there is gathered, what it stores there is stored (R184). -/
def State.segment (s : State) (c : Cl) (w : CacheWait) : State × CacheWait × Bool :=
  let n := w.part
  let read := fun (_ : Unit) =>
    let (s1, v, p) := s.l1Bytes c w.next n
    (s1, { w with done := w.done + n, acc := w.acc ||| (v <<< (8 * w.done)), accTag := w.accTag || p }, false)
  match w.op with
  | .load .. | .lane .. | .atomic .. => read ()
  | .store _ d p _ =>
    let (s1, err) := s.l1Store c w.next n ((d >>> (8 * w.done)) &&& byteMask 0 n) p
    (s1, { w with done := w.done + n }, err)

/-- The core no longer waits for a line. -/
def State.unblock (s : State) (c : Cl) : State := s.onCore c (fun k => { k with blocked := false })

/-- An access ends: every line it needs has been held. An atomic moves its line to M whatever it stores (Table 08-2). -/
def State.perform (s : State) (c : Cl) (w : CacheWait) (err : Bool) : State :=
  match w.op with
  | .load kind rd => (s.unblock c).finish c (fun k => k.writeG rd (kind.extend w.acc) w.accTag)
  | .lane vd => (s.unblock c).finish c (fun k => k.writeV vd w.acc w.accTag 3)
  | .store _ _ _ commits =>
    if commits then
      ((s.unblock c).finish c id).when err (fun s => s.onCore c (fun k => { k with late := k.late ++ [w.addr] }))
    else s.when err (·.egressError c w.addr)
  | .atomic op rd src st cmp ct =>
    let old : Word := w.acc.setWidth 32
    let s0 := (s.l1Own c w.line).unblock c
    if w.accTag then s0.excPoison c 6 w.addr
    else if op == .cas && ct then s0.excPoison c 6 (rd.setWidth 32)
    else
      let s1 := match op.apply old src cmp with
        | some new => (s0.l1Store c w.addr.toNat 4 (new.setWidth 128) st).1
        | none => s0
      s1.finish c (fun k => k.writeG rd old st)

/-- An access that cannot send its request is tried again: a store that has left the egress hold from there, any other with its
instruction (R167). -/
def State.retryLater (s : State) (c : Cl) (w : CacheWait) : State :=
  match w.op with
  | .store _ _ _ false => s.egressBack c w.addr
  | _ => s.unblock c

/-- An access asks for its next line and waits (R182, R194). -/
def State.awaitLine (s : State) (c : Cl) (w : CacheWait) : State :=
  match s.request c w.line w.op.excl w with
  | some s1 =>
    match w.op with
    | .store _ _ _ false => s1
    | _ => s1.onCore c (fun k => { k with blocked := true })
  | none => s.retryLater c w

/-- An access of a core to Chord, line by line (at most two): on each it performs once it holds the line (R182, R184, R194). -/
def State.accessLines : Nat → Cl → CacheWait → State → State
  | 0, _, _, s => s
  | n + 1, c, w, s =>
    if s.lineHit c w then
      let (s1, w1, err) := s.segment c w
      if err || w1.op.bytes ≤ w1.done then s1.perform c { w1 with done := w.done } err else State.accessLines n c w1 s1
    else s.awaitLine c w

def State.access (s : State) (c : Cl) (w : CacheWait) : State := State.accessLines 2 c w s

/-- A waiting access continues after a grant. -/
def State.resume (s : State) (c : Cl) (l : Line) : State :=
  match s.l1 c l with
  | some x =>
    match x.wait with
    | some w => (s.l1Put c { x with wait := none }).access c w
    | none => s
  | none => s

/-- An access whose request a quiesced slice ends with a bus error (R198). -/
def State.accessError (s : State) (c : Cl) (l : Line) : State :=
  match s.l1 c l with
  | some x =>
    let s1 := if x.st = .smD then s.l1Put c { x with st := .s, wait := none } else s.l1Drop c l
    match x.wait with
    | some w =>
      match w.op with
      | .load .. | .lane .. => (s1.unblock c).excLoad c w.addr
      | .atomic .. => (s1.unblock c).excStore c w.addr
      | .store _ _ _ true => ((s1.unblock c).finish c id).onCore c (fun k => { k with late := k.late ++ [w.addr] })
      | .store _ _ _ false => s1.egressError c w.addr
    | none => s1
  | none => s

/-! ## Cache: probes (Table 08-3) -/

/-- COH_STRAY: a probe in I or II_A (R184). -/
def State.stray (s : State) (l : Line) : State :=
  ((s.evChord .stray).cntChord .stray).detect .cohStray (homeOf l).val (BitVec.ofNat 32 (lineAddr l))

/-- The wrapper of a dead agent answers (R195): LOST when the line is dirty in its L1D or its tag is uncorrectable. -/
def State.deadAnswer (s : State) (c : Cl) (l : Line) : State :=
  s.send (.ackGone c l ((s.l1 c l).any L1Line.lost))

/-- A cache answers a probe (Table 08-3). -/
def State.answerProbe (s : State) (k : ProbeKind) (c : Cl) (l : Line) : State :=
  if s.chord.wrapped.getLsbD c.val then s.deadAnswer c l
  else match s.l1 c l with
  | none => (s.stray l).send (.ackGone c l false)
  | some x =>
    let gone := fun (s : State) => s.send (.ackGone c l false)
    let dirty := fun (s : State) (sh : Bool) => (s.noteL1Line c x).send (.carryDirty c l x.data x.poison sh)
    match x.st, k with
    | .iiA, _ => gone (s.stray l)
    | .s, .share => s.proto l
    | .s, _ => gone (s.l1Drop c l)
    | .e, .share => (s.l1Put c { x with st := .s }).send (.ackKept c l)
    | .e, _ => gone (s.l1Drop c l)
    | .m, .share => dirty (s.l1Put c { x with st := .s }) true
    | .m, .kill => gone (s.l1Drop c l)
    | .m, _ => dirty (s.l1Drop c l) false
    | .isD, _ => s.l1Put c { x with deferred := some k }
    | .imD, _ => s.l1Put c { x with deferred := some k }
    | .smD, .share => s.proto l
    | .smD, _ => gone (s.l1Put c { x with st := .imD })
    | .miA, .kill => gone (s.l1Put c { x with st := .iiA })
    | .miA, _ => dirty (s.l1Put c { x with st := .iiA }) false
    | .ciA, _ => gone (s.l1Put c { x with st := .iiA })

/-- A probe reaches a cache. -/
def State.probe (s : State) (k : ProbeKind) (c : Cl) (l : Line) : State :=
  if lineOk l then s.receive (.probe k c l) (·.answerProbe k c l) else s

def execProbeShare (a : Cl) (line : Line) (s : State) : Out := .next (s.probe .share a line)
def execProbeTake (a : Cl) (line : Line) (s : State) : Out := .next (s.probe .take a line)
def execProbeKill (a : Cl) (line : Line) (s : State) : Out := .next (s.probe .kill a line)
def execProbeEvict (a : Cl) (line : Line) (s : State) : Out := .next (s.probe .evict a line)

/-! ## Cache: completions (Table 08-2) -/

/-- The deferred probe of a line is answered from the state the grant produced (R184). -/
def State.applyDeferred (s : State) (c : Cl) (l : Line) (k : Option ProbeKind) : State :=
  match k with
  | some k => s.answerProbe k c l
  | none => s

/-- CarryGrant reaches a cache. -/
def State.grant (s : State) (c : Cl) (l : Line) (data : BitVec 512) (poison : BitVec 4) (excl nodata : Bool) : State :=
  if s.chord.wrapped.getLsbD c.val then s
  else match s.l1 c l with
  | none => s.proto l
  | some x =>
    let fill := fun (st : CState) => { x with st := st, words := lineCells data poison, tagBad := false, deferred := none }
    match x.st, nodata with
    | .isD, false => ((s.l1Put c (fill (if excl then .e else .s))).resume c l).applyDeferred c l x.deferred
    | .imD, false => ((s.l1Put c (fill .e)).resume c l).applyDeferred c l x.deferred
    | .smD, true => ((s.l1Put c { x with st := .e, deferred := none }).resume c l).applyDeferred c l x.deferred
    | _, _ => s.proto l

/-- The four words of an AskPeek reach the unit that asked (R180). -/
def State.peeked (s : State) (data : BitVec 512) (poison : BitVec 4) : State :=
  { s with ans := ⟨lineWord data 0, poison != 0, false, bytesOf 64 data, poison⟩ }

def execCarryGrant (a : Agent) (line : Line) (data : BitVec 512) (poison : BitVec 4) (excl : Bool) (nodata : Bool)
    (s : State) : Out :=
  if lineOk line then
    .next (s.receive (.carryGrant a line data poison excl nodata) (fun s =>
      match cacheOf a with
      | some c => s.grant c line data poison excl nodata
      | none => s.peeked data poison))
  else .next s

/-- AckDone reaches a cache: MI_A, CI_A and II_A return to I. -/
def State.evicted (s : State) (c : Cl) (l : Line) (ok : CState → Bool) : State :=
  if s.chord.wrapped.getLsbD c.val then s
  else match s.l1 c l with
  | some x => if ok x.st then s.l1Drop c l else s.proto l
  | none => s.proto l

/-- AckDone reaches its requester: a cache's eviction is over; a unit that caches nothing has written. -/
def execAckDone (a : Agent) (line : Line) (s : State) : Out :=
  if lineOk line then
    .next (s.receive (.ackDone a line) (fun s =>
      match cacheOf a with
      | some c => s.evicted c line (fun st => st == .miA || st == .ciA || st == .iiA)
      | none => s.answer 0 false false))
  else .next s

/-- AckStale reaches a cache: CI_A and II_A return to I. -/
def execAckStale (a : Cl) (line : Line) (s : State) : Out :=
  if lineOk line then .next (s.receive (.ackStale a line) (·.evicted a line (fun st => st == .ciA || st == .iiA)))
  else .next s

/-! ## Home: trackers (R188, R189, R190) -/

/-- A tracker word of this syndrome is uncorrectable (R190). -/
def synBad (syn : BitVec 9) : Bool :=
  match decodeSyndrome syn with
  | .clean | .checkBit | .dataBit _ => false
  | .address | .poisoned | .uncorrectable => true

/-- Holders and X bit of a line in the Tag Mirror, from its readable entries. -/
def Slice.tmLook (h : Slice) (l : Line) : BitVec 8 × Bool :=
  (h.tm.foldl (fun m e => if e.line = l && !synBad e.syn then m ||| oneHot 8 e.agent.val else m) 0,
    h.tm.any (fun e => e.line == l && e.x && !synBad e.syn))

/-- Holders and X bit of a line in the Vector Directory, from a readable entry. -/
def Slice.vdLook (h : Slice) (l : Line) : BitVec 8 × Bool :=
  match h.vd.find? (fun e => e.line == l && !synBad e.syn) with
  | some e => (e.vec, e.x)
  | none => (0, false)

/-- A lookup of a line reads an uncorrectable word of the Tag Mirror, or of the directory: there also an entry with a bit of
VEC[7:5] set counts as one (R189, R190). -/
def Slice.tmBad (h : Slice) (l : Line) : Bool := h.tm.any (fun e => l1Set e.line == l1Set l && synBad e.syn)
def Slice.vdBad (h : Slice) (l : Line) : Bool :=
  h.vd.any (fun e => vdSet e.line == vdSet l && synBad e.syn) || field (h.vdLook l).1 5 3 != 0

/-- The accounting of the tracker words that a lookup reads: MEM codes 0x24 + s and 0x28 + s (Table 04-8; log 11). -/
def State.noteTrackers (s : State) (l : Line) : State :=
  let i := homeOf l
  let h := s.chord.slice[i]
  let s1 := s.each (if h.mode = .vectorOnly then [] else h.tm.filter (fun e => l1Set e.line == l1Set l)) (fun e s =>
    s.account (BitVec.ofNat 8 (0x24 + i.val)) (BitVec.ofNat 24 (e.agent.val * 128 + l1Set l / 4 * 4 + e.way.toNat)) (lineAddr l)
      e.syn .other)
  s1.each (if h.mode = .mirrorOnly then [] else h.vd.filter (fun e => vdSet e.line == vdSet l)) (fun e s =>
    s.account (BitVec.ofNat 8 (0x28 + i.val)) (BitVec.ofNat 24 (vdSet l * 8 + e.way.toNat)) (lineAddr l) e.syn .other)

/-- The retirement of a tracker (R191): `mirror` is the Tag Mirror. In CHECKED the slice will switch to the other tracker's
mode; the failure of the remaining tracker raises COH_SLICE; that of a tracker no longer used raises nothing. -/
def State.retireTracker (s : State) (i : SliceId) (mirror : Bool) (detail : Word) : State :=
  let h := s.chord.slice[i]
  let fail := s.onSlice i (fun h => if mirror then { h with tmFailed := true } else { h with vdFailed := true })
  match h.switchTo.getD h.mode with
  | .checked =>
    ((fail.onSlice i (fun h => { h with switchTo := some (if mirror then .vectorOnly else .mirrorOnly) })).evChord .degrade).detect
      .cohDegrade i.val detail
  | .mirrorOnly => if mirror then (fail.evChord .slice).detect .cohSlice i.val detail else s
  | .vectorOnly => if mirror then s else (fail.evChord .slice).detect .cohSlice i.val detail

/-- The holder set and X bit a transaction uses (R190). -/
def State.lookup (s : State) (l : Line) : State × BitVec 5 × Bool :=
  let i := homeOf l
  let h := s.chord.slice[i]
  let s := s.noteTrackers l
  let tm := h.tmLook l
  let vd := h.vdLook l
  let addr := BitVec.ofNat 32 (lineAddr l)
  let cut := fun (m : BitVec 8) => m.setWidth 5
  match h.mode with
  | .mirrorOnly => (s.when (h.tmBad l) (·.retireTracker i true addr), cut tm.1, tm.2)
  | .vectorOnly => (s.when (h.vdBad l) (·.retireTracker i false addr), cut vd.1, vd.2)
  | .checked =>
    if tm = vd then (s, cut tm.1, tm.2)
    else if h.vdBad l then (s.retireTracker i false addr, cut tm.1, tm.2)
    else if h.tmBad l then (s.retireTracker i true addr, cut vd.1, vd.2)
    else ((s.evChord .track).detect .cohTrack i.val addr, cut tm.1 ||| cut vd.1, tm.2 || vd.2)

/-- The tree pseudo-LRU after a use of a way: the bits on its path point away from it. -/
def plruTouch (b : BitVec 7) (way : Nat) : BitVec 7 :=
  let n1 := 1 + way / 4
  let n2 := 3 + way / 2
  putBit (putBit (putBit b 0 (decide (way / 4 = 0))) n1 (decide (way / 2 % 2 = 0))) n2 (decide (way % 2 = 0))

/-- The victim of a set among the eligible ways: down the tree by its bits, to the other side where one has none. -/
def plruVictim (b : BitVec 7) (ok : Nat → Bool) : Option Nat :=
  let pick := fun (bitv : Bool) (x y : Option Nat) =>
    match (if bitv then y else x) with | some v => some v | none => if bitv then x else y
  let leaf := fun w => if ok w then some w else none
  let pair := fun n w => pick (b.getLsbD n) (leaf w) (leaf (w + 1))
  let half := fun n m w => pick (b.getLsbD n) (pair m w) (pair (m + 1) (w + 2))
  pick (b.getLsbD 0) (half 1 3 0) (half 2 5 4)

/-- A use of a line's directory entry (R189). -/
def State.vdTouch (s : State) (l : Line) : State :=
  s.onSlice (homeOf l) (fun h =>
    match h.vd.find? (fun e => e.line == l) with
    | some e => { h with plru := updN h.plru (vdSet l) (fun b => plruTouch b e.way.toNat) }
    | none => h)

/-- The directory is maintained in CHECKED and VECTOR-ONLY, the mirror in CHECKED and MIRROR-ONLY (Table 08-6). -/
def Slice.usesVd (h : Slice) : Bool := h.mode != .mirrorOnly
def Slice.usesTm (h : Slice) : Bool := h.mode != .vectorOnly

/-- An agent becomes a holder, exclusively or not (R188): the way's previous occupant moves to the victim shadow. -/
def State.addHolder (s : State) (l : Line) (c : Cl) (way : BitVec 2) (x : Bool) : State :=
  s.onSlice (homeOf l) (fun h =>
    let tm1 := (h.tm.filter (fun e => !(e.line == l && e.agent == c))).map (fun e =>
      if e.agent == c && l1Set e.line == l1Set l && e.way == way && !e.shadow then { e with shadow := true } else e)
    { h with
      tm := if h.usesTm then tm1 ++ [⟨c, l, way, x, false, 0⟩] else h.tm
      vd := h.vd.map (fun e => if e.line = l then { e with vec := putBit e.vec c.val true, x := x } else e) })

/-- The transient flag of a line's directory entry; an entry without holders is freed when it clears. -/
def State.vdTransient (s : State) (l : Line) (b : Bool) : State :=
  s.onSlice (homeOf l) (fun h => { h with
    vd := (h.vd.map (fun e => if e.line = l then { e with transient := b } else e)).filter
      (fun e => e.transient || e.vec != 0) })

/-! ## Home: transactions (R181, R185) -/

/-- Change the transaction of an agent on a line. -/
def State.onTxn (s : State) (a : Agent) (l : Line) (f : Txn → Txn) : State :=
  s.onSlice (homeOf l) (fun h => { h with txns := h.txns.map (fun t => if t.agent == a && t.line == l then f t else t) })

/-- The transaction of an agent on a line. -/
def State.txn (s : State) (a : Agent) (l : Line) : Option Txn :=
  s.chord.slice[homeOf l].txns.find? (fun t => t.agent == a && t.line == l)

/-- A line with a transaction in progress, an eviction or a flush (R181). -/
def Slice.lineBusy (h : Slice) (l : Line) : Bool :=
  h.txns.any (fun t => (t.active && t.line == l) || (match t.evict with | some e => e.1 == l | none => false)) ||
    h.flushed.any (fun p => p.1 == l)

/-- Probes of one kind sent to a set of caches. -/
def State.probeAll (s : State) (k : ProbeKind) (m : BitVec 5) (l : Line) : State :=
  s.each clusters (fun c s => s.when (m.getLsbD c.val) (fun s => s.send (.probe k c l)))

/-- The caches a running flush takes lines of a slice from (R197, R198). -/
def State.flushMaskOf (s : State) (i : SliceId) : BitVec 5 :=
  (if s.chord.flush then s.chord.flushUse else 0) ||| (if s.chord.slice[i].flushing then 31 else 0)

/-- The holders of a line as either tracker names them. -/
def Slice.holders (h : Slice) (l : Line) : BitVec 5 :=
  match h.mode with
  | .mirrorOnly => (h.tmLook l).1.setWidth 5
  | .vectorOnly => (h.vdLook l).1.setWidth 5
  | .checked => (h.tmLook l).1.setWidth 5 ||| (h.vdLook l).1.setWidth 5

/-- Lines a slice tracks. -/
def Slice.tracked (h : Slice) : List Line :=
  ((h.tm.map (·.line)) ++ ((h.vd.filter (fun e => e.vec != 0)).map (·.line))).eraseDups

/-- A line's holders in a flush mask are probed, unless the line is busy (R197). -/
def State.flushLine (s : State) (l : Line) : State :=
  let i := homeOf l
  let h := s.chord.slice[i]
  let m := h.holders l &&& s.flushMaskOf i
  if m = 0 || h.lineBusy l then s
  else ((s.onSlice i (fun h => { h with flushed := h.flushed ++ [(l, m)] })).vdTransient l true).probeAll .evict m l

/-- The request ends: its tracker entry is free and the line's directory entry is no longer transient. -/
def State.endTxn (s : State) (a : Agent) (l : Line) : State :=
  ((s.onSlice (homeOf l) (fun h => { h with
    txns := h.txns.filter (fun t => !(t.agent == a && t.line == l))
    reserved := h.reserved.filter (fun r => !(r.1 == a && r.2 == l)) })).vdTransient l false).flushLine l

/-- The completion of a request whose answers are all in (Table 08-4, R186). -/
def State.complete (s : State) (t : Txn) : State :=
  let l := t.line
  let a := t.agent
  let i := agentInit a
  match t.kind with
  | .share =>
    match cacheOf a with
    | some c =>
      let excl := s.chord.slice[homeOf l].holders l &&& ~~~ oneHot 5 c.val == 0
      let (s1, d, p) := s.readLine l i
      (((s1.addHolder l c t.way excl).vdTouch l).send (.carryGrant a l d p excl false)).endTxn a l
    | none => s.endTxn a l
  | .own | .upgrade =>
    match cacheOf a with
    | some c =>
      if t.nodata then (((s.addHolder l c t.way true).vdTouch l).send (.carryGrant a l 0 0 true true)).endTxn a l
      else
        let (s1, d, p) := s.readLine l i
        (((s1.addHolder l c t.way true).vdTouch l).send (.carryGrant a l d p true false)).endTxn a l
    | none => s.endTxn a l
  | .peek =>
    let (s1, d, p) := s.readLine l i
    (s1.send (.carryGrant a l d p false false)).endTxn a l
  | .put =>
    match t.put with
    | some (d, p, m) => ((s.writeLine l d p m).send (.ackDone a l)).endTxn a l
    | none => s
  | .retireDirty =>
    match t.put, cacheOf a with
    | some (d, p, m), some c =>
      if (s.chord.slice[homeOf l].holders l).getLsbD c.val && (s.lookup l).2.2 then
        (((s.writeLine l d p m).dropHolder l c).send (.ackDone a l)).endTxn a l
      else ((s.cntChord .stale).send (.ackStale c l)).endTxn a l
    | _, _ => s
  | .retireClean =>
    match cacheOf a with
    | some c =>
      if (s.chord.slice[homeOf l].holders l).getLsbD c.val then ((s.dropHolder l c).send (.ackDone a l)).endTxn a l
      else ((s.cntChord .stale).send (.ackStale c l)).endTxn a l
    | none => s.endTxn a l

/-- Probes for a request: it waits for every answer, or completes when there is none to wait for. -/
def State.probing (s : State) (t : Txn) (k : ProbeKind) (m : BitVec 5) : State :=
  if m = 0 then s.complete t
  else (s.onTxn t.agent t.line (fun x => { x with awaiting := m })).probeAll k m t.line

/-- A request that finds every way of its set transient or reserved is replayed, and is aged after 16 replays (R193). -/
def State.replay (s : State) (t : Txn) : State :=
  let n := t.replays + 1
  let s1 := (s.onTxn t.agent t.line (fun x => { x with active := false, replays := n })).cntChord .retry
  if n = 16 then
    ((s1.onSlice (homeOf t.line) (fun h => { h with
      reserved := h.reserved ++ [(t.agent, t.line)] })).cntChord .aged).detect .cohAged
        (homeOf t.line).val (BitVec.ofNat 32 (lineAddr t.line))
  else s1

/-- The age of a request: its place among those of the slice, oldest first (R193). -/
def Slice.age (h : Slice) (a : Agent) (l : Line) : Nat := h.txns.findIdx (fun t => t.agent == a && t.line == l)

/-- An older aged request holds a reservation in the set a request needs: the request may take no way of it (R193). -/
def Slice.barred (h : Slice) (a : Agent) (l : Line) : Bool :=
  h.reserved.any (fun r => vdSet r.2 == vdSet l && decide (h.age r.1 r.2 < h.age a l))

/-- The line gains its first holder: a directory entry is allocated, after an eviction where the set is full (R189). -/
def State.withEntry (s : State) (t : Txn) : State :=
  let l := t.line
  let i := homeOf l
  let h := s.chord.slice[i]
  let inSet := h.vd.filter (fun e => vdSet e.line == vdSet l)
  if !h.usesVd || h.vd.any (fun e => e.line == l) then s.complete t
  else
    let freeWay := (List.range 8).find? (fun w => !inSet.any (fun e => e.way.toNat == w))
    match !h.barred t.agent l, freeWay with
    | false, _ => s.replay t
    | true, some w =>
      (s.onSlice i (fun h => { h with vd := h.vd ++ [⟨l, BitVec.ofNat 3 w, 0, false, true, 0⟩] })).complete t
    | true, none =>
      let ok := fun w => inSet.any (fun e => e.way.toNat == w && !e.transient)
      match plruVictim (getN h.plru (vdSet l) 0) ok with
      | some w =>
        match inSet.find? (fun e => e.way.toNat == w) with
        | some v =>
          let m := h.holders v.line
          (((s.vdTransient v.line true).onTxn t.agent l (fun x => { x with evict := some (v.line, m) })).cntChord .evict
            ).probeAll .evict m v.line
        | none => s.replay t
      | none => s.replay t

/-- A request starts: no earlier transaction of its line is in progress (Table 08-4). -/
def State.begin (s : State) (t : Txn) : State :=
  let l := t.line
  let s0 := (s.onTxn t.agent l (fun x => { x with active := true })).vdTransient l true
  let t := { t with active := true }
  if (t.kind = .put || t.kind = .retireDirty) && t.put.isNone then s0
  else
    let (s1, hold, x) := s0.lookup l
    let mine := match cacheOf t.agent with | some c => hold.getLsbD c.val | none => false
    let others := match cacheOf t.agent with | some c => hold &&& ~~~ oneHot 5 c.val | none => hold
    let refuse := (s1.proto l).endTxn t.agent l
    match t.kind with
    | .share =>
      if mine then refuse
      else if hold = 0 then s1.withEntry t
      else if x then s1.probing t .share others
      else s1.complete t
    | .own =>
      if mine then refuse else if hold = 0 then s1.withEntry t else s1.probing t .take others
    | .upgrade =>
      if mine then
        if x then refuse
        else
          let t' := { t with nodata := true }
          (s1.onTxn t.agent l (fun x => { x with nodata := true })).probing t' .take others
      else if hold = 0 then s1.withEntry t else s1.probing t .take others
    | .peek => if x then s1.probing t .share others else s1.complete t
    | .put =>
      let full := match t.put with | some p => p.2.2 == 15 | none => false
      s1.probing t (if !x || full then .kill else .take) others
    | .retireDirty | .retireClean => s1.complete t

/-- The next request of a slice that may start: in age order, its line free, not a replay that still finds no way. -/
def State.startable (s : State) (i : SliceId) : Option Txn :=
  let h := s.chord.slice[i]
  h.txns.find? (fun t =>
    !t.active && !h.lineBusy t.line && h.switchTo.isNone &&
      (h.txns.find? (fun u => u.line == t.line)).map (·.agent) == some t.agent &&
      (t.replays == 0 ||
        (!h.usesVd || (h.reserved.contains (t.agent, t.line) && !h.barred t.agent t.line &&
          decide ((h.vd.filter (fun e => vdSet e.line == vdSet t.line && e.transient)).length < 8)))))

/-- Requests start while any may; `fuel` bounds them by the tracker entries. -/
def State.pump : Nat → SliceId → State → State
  | 0, _, s => s
  | n + 1, i, s =>
    match s.startable i with
    | some t => State.pump n i (s.begin t)
    | none => s

/-- Requests of a slice started. -/
def State.pumpSlice (s : State) (i : SliceId) : State := State.pump (s.chord.slice[i].txns.length + 1) i s

/-- The request is held at the request entry: a mode switch is pending (R191), a flush holds its agent (R197), or the slice
sleeps and has to wake first (R87). -/
def State.held (s : State) (a : Agent) (l : Line) : Bool :=
  let h := s.chord.slice[homeOf l]
  h.switchTo.isSome || (match cacheOf a with | some c => s.chord.flush && s.chord.flushUse.getLsbD c.val | none => false) ||
    s.powerOf (rqSlice (homeOf l)) == .retain

/-- The wrapper of an agent in TACET has dropped its waiting requests: only its evictions go on (R172, R195). -/
def State.dropped (s : State) (k : AskKind) (a : Agent) : Bool :=
  k != .retireDirty && k != .retireClean &&
    (match cacheOf a with | some c => s.chord.wrapped.getLsbD c.val | none => false)

/-- A request takes a tracker entry, with its data if that has come already, and starts as soon as it may (R178, R181, R185). -/
def State.enterTxn (s : State) (k : AskKind) (a : Agent) (l : Line) (way : BitVec 2) : State :=
  let put := if k = .put || k = .retireDirty then
    (s.chord.slice[homeOf l].early.find? (fun e => e.1 == a && e.2.1 == l)).map (·.2.2) else none
  (s.onSlice (homeOf l) (fun h => { h with
    early := if put.isSome then h.early.eraseP (fun e => e.1 == a && e.2.1 == l) else h.early
    txns := h.txns ++ [⟨k, a, l, way, false, 0, put, none, 0, false⟩] })).pumpSlice (homeOf l)

/-- A request reaches its home (R181, R185, R193, R198). A replayed request that comes again is tried again. -/
def State.ask (s : State) (k : AskKind) (a : Agent) (l : Line) (way : BitVec 2) : State :=
  if !lineOk l then s
  else if s.dropped k a then s.take (.ask k a l way)
  else if s.held a l then s.when (s.powerOf (rqSlice (homeOf l)) == .retain) (·.askGrant (rqSlice (homeOf l)))
  else
    let i := homeOf l
    match s.txn a l with
    | some t => if t.kind = k && !t.active && t.replays != 0 && !s.chord.slice[i].lineBusy l then (s.begin t).pumpSlice i else s
    | none =>
      if 32 ≤ s.chord.slice[i].txns.length then s
      else s.receive (.ask k a l way) (fun s1 =>
        if s.chord.slice[i].quiesce && k != .retireDirty && k != .retireClean then
          match cacheOf a with
          | some c => s1.accessError c l
          | none => s1.answer 0 false true
        else s1.enterTxn k a l way)

def execAskShare (a : Cl) (line : Line) (way : BitVec 2) (s : State) : Out := .next (s.ask .share (agentOf a) line way)
def execAskOwn (a : Cl) (line : Line) (way : BitVec 2) (s : State) : Out := .next (s.ask .own (agentOf a) line way)
def execAskUpgrade (a : Cl) (line : Line) (way : BitVec 2) (s : State) : Out := .next (s.ask .upgrade (agentOf a) line way)

/-- A non-caching agent: 5 to 8 (R177). -/
def nonCaching (a : Agent) : Bool := decide (5 ≤ a.val)

/-- Chord requests outstanding of a unit that caches nothing: in a tracker, or answered by a message still on its way (R167). -/
def State.outstanding (s : State) (a : Agent) : Nat :=
  (slices.map (fun i => (s.chord.slice[i].txns.filter (fun t => t.agent == a)).length)).foldl (· + ·) 0 +
    (s.chord.net.filter (fun m => match m with
      | .carryGrant b _ _ _ _ _ | .ackDone b _ => b == a
      | _ => false)).length

/-- The Chord requests such a unit may have outstanding: the Mirror engine four, each DMA two, the command fetch one (R167). -/
def askLimit (a : Agent) : Nat := match a.val with | 5 => 4 | 6 | 7 => 2 | _ => 1

/-- A request of a unit that caches nothing; beyond its limit it waits. -/
def State.unitAsk (s : State) (k : AskKind) (a : Agent) (l : Line) : State :=
  if nonCaching a && decide (s.outstanding a < askLimit a) then s.ask k a l 0 else s

def execAskPeek (a : Agent) (line : Line) (s : State) : Out := .next (s.unitAsk .peek a line)
def execAskPut (a : Agent) (line : Line) (s : State) : Out := .next (s.unitAsk .put a line)

def execRetireDirty (a : Cl) (line : Line) (s : State) : Out := .next (s.ask .retireDirty (agentOf a) line 0)
def execRetireClean (a : Cl) (line : Line) (s : State) : Out := .next (s.ask .retireClean (agentOf a) line 0)

/-! ## Home: answers -/

/-- What awaits a cache's answer on a line. -/
inductive Awaiter where
  | probe (t : Txn)
  | evict (t : Txn)
  | flush
deriving DecidableEq, Repr

/-- Who awaits the answer of a cache on a line. -/
def State.awaiter (s : State) (c : Cl) (l : Line) : Option Awaiter :=
  let h := s.chord.slice[homeOf l]
  match h.txns.find? (fun t => t.line == l && t.awaiting.getLsbD c.val) with
  | some t => some (.probe t)
  | none =>
    match h.txns.find? (fun t => match t.evict with | some e => e.1 == l && e.2.getLsbD c.val | none => false) with
    | some t => some (.evict t)
    | none => if h.flushed.any (fun p => p.1 == l && p.2.getLsbD c.val) then some .flush else none

/-- An answer counted in; the last one lets the transaction go on. -/
def State.collected (s : State) (c : Cl) (l : Line) (w : Awaiter) : State :=
  let i := homeOf l
  let off := ~~~ (oneHot 5 c.val : BitVec 5)
  match w with
  | .probe t =>
    let m := t.awaiting &&& off
    let s1 := s.onTxn t.agent t.line (fun x => { x with awaiting := m })
    if m = 0 then (s1.complete { t with awaiting := m }).pumpSlice i else s1
  | .evict t =>
    match t.evict with
    | some e =>
      let m := e.2 &&& off
      if m = 0 then
        let t' := { t with evict := none }
        let s1 := (s.onTxn t.agent t.line (fun _ => t')).vdTransient l false
        (s1.withEntry t').pumpSlice i
      else s.onTxn t.agent t.line (fun x => { x with evict := some (l, m) })
    | none => s
  | .flush =>
    let s1 := s.onSlice i (fun h => { h with
      flushed := (h.flushed.map (fun p => if p.1 = l then (p.1, p.2 &&& off) else p)).filter (fun p => p.2 != 0) })
    (s1.when (!s1.chord.slice[i].flushed.any (fun p => p.1 == l)) (·.vdTransient l false)).pumpSlice i

/-- An answer of a cache on a line: what awaits it takes it in; an answer that nothing awaits is COH_PROTO (R185). -/
def State.answered (s : State) (m : CohMsg) (c : Cl) (l : Line) (go : State → State) : State :=
  if lineOk l then
    s.receive m (fun s =>
      match s.awaiter c l with
      | some w => (go s).collected c l w
      | none => s.proto l)
  else s

def execAckGone (a : Cl) (line : Line) (lost : Bool) (s : State) : Out :=
  .next (s.answered (.ackGone a line lost) a line (fun s => (s.when lost (·.loseLine line a)).dropHolder line a))

def execAckKept (a : Cl) (line : Line) (s : State) : Out :=
  .next (s.answered (.ackKept a line) a line (·.unX line))

def execCarryDirty (a : Cl) (line : Line) (data : BitVec 512) (poison : BitVec 4) (shared : Bool) (s : State) : Out :=
  .next (s.answered (.carryDirty a line data poison shared) a line (fun s =>
    let s1 := s.writeLine line data poison 15
    if shared then s1.unX line else s1.dropHolder line a))

/-- The request whose data this is is still on its way (R178): a unit that caches nothing always sends one. -/
def State.putAhead (s : State) (a : Agent) (l : Line) : Bool :=
  nonCaching a || s.chord.net.any (fun m => match m with | .ask .retireDirty b l' _ => b == a && l' == l | _ => false)

/-- CarryPut reaches its home: it always sinks, into its transaction or, ahead of its request, into the buffer reserved for it. -/
def State.carryPut (s : State) (a : Agent) (l : Line) (d : BitVec 512) (p m : BitVec 4) : State :=
  match s.txn a l with
  | some t =>
    if (t.kind = .put || t.kind = .retireDirty) && t.put.isNone then
      let t' := { t with put := some (d, p, m) }
      let s1 := s.onTxn a l (fun _ => t')
      if t.active then (s1.begin t').pumpSlice (homeOf l) else s1
    else s.proto l
  | none =>
    if s.putAhead a l then s.onSlice (homeOf l) (fun h => { h with early := h.early ++ [(a, l, d, p, m)] }) else s.proto l

def execCarryPut (a : Agent) (line : Line) (data : BitVec 512) (poison : BitVec 4) (mask : BitVec 4) (s : State) : Out :=
  if lineOk line then .next (s.receive (.carryPut a line data poison mask) (·.carryPut a line data poison mask)) else .next s

/-! ## Dead agents (R195, R196) -/

/-- An agent dies: its wrapper answers for it, its waiting and replayed requests are dropped (R172), and every home starts the
reclaim walk. -/
def State.killAgent (s : State) (c : Cl) : State :=
  s.onChord (fun h => { h with
    dead := h.dead ||| oneHot 5 c.val, wrapped := h.wrapped ||| oneHot 5 c.val, reclaiming := h.reclaiming ||| oneHot 5 c.val
    net := h.net.filter (fun m => match m with
      | .ask k a _ _ => !(a == agentOf c && k != .retireDirty && k != .retireClean)
      | _ => true)
    slice := h.slice.map (fun x =>
      let gone := fun (t : Txn) => t.agent == agentOf c && !t.active && t.replays != 0
      { x with
        txns := x.txns.filter (fun t => !gone t)
        reserved := x.reserved.filter (fun r => !x.txns.any (fun t => gone t && r == (t.agent, t.line))) }) })

/-- The walk's step on one line of a dead agent. -/
def State.reclaimLine (s : State) (l : Line) (c : Cl) : State :=
  ((s.when ((s.l1 c l).any L1Line.lost) (·.loseLine l c)).dropHolder l c).vdTransient l false

/-- A message is from an agent's cache to a slice's home. -/
def CohMsg.fromCache (m : CohMsg) (c : Cl) (i : SliceId) : Bool := m.channel.2 == (c.val, 16 + i.val)

/-- A home can finish its walk for an agent: no transaction of the agent, none that awaits it (R196 step 1), and no message that
left the agent before TACET still on its way (R195). -/
def State.walkReady (s : State) (c : Cl) (i : SliceId) : Bool :=
  let h := s.chord.slice[i]
  h.txns.all (fun t => t.agent != agentOf c && !t.awaiting.getLsbD c.val &&
    (match t.evict with | some e => !e.2.getLsbD c.val | none => true)) &&
    h.flushed.all (fun p => !p.2.getLsbD c.val) && !s.chord.net.any (fun m => m.fromCache c i)

/-- RECLAIM_DONE: all four slices have finished (R196); an L1D whose reset has waited for the walk is cleared. -/
def execReclaimDone (s : State) : Out :=
  let dead := clusters.filter (fun c => s.chord.reclaiming.getLsbD c.val)
  if dead.isEmpty || !dead.all (fun c => slices.all (s.walkReady c)) then .next s
  else
    let s1 := s.each dead (fun c s => s.each slices (fun i s =>
      s.each (s.chord.slice[i].tracked.filter (fun l => (s.chord.slice[i].holders l).getLsbD c.val)) (fun l s =>
        s.reclaimLine l c)))
    let clear := fun (c : Cl) => dead.contains c && !s.chord.dead.getLsbD c.val
    .next ((s1.onChord (fun h => { h with
      reclaiming := 0, l1d := Vector.ofFn (fun c => if clear c then [] else h.l1d[c]) })).evChord .reclaimDone)

/-- An L3 reset reaches an agent's L1D: at once, or after the reclaim walk that still runs (R196); DEAD clears (Table 08-8). -/
def State.resetL1 (s : State) (c : Cl) : State :=
  s.onChord (fun h => { h with
    dead := putBit h.dead c.val false
    l1d := if h.reclaiming.getLsbD c.val then h.l1d else upd h.l1d c (fun _ => []) })

/-! ## Flushes, quiesce and modes (R191, R192, R197, R198) -/

/-- The flush with the mask FLUSH_MASK holds: ProbeEvict for every tracked line with a holder in it (R197). -/
def State.beginFlush (s : State) : State :=
  let s1 := s.onChord (fun h => { h with flush := true, flushUse := h.flushMask, flushHeld := false })
  s1.each slices (fun i s => s.each s.chord.slice[i].tracked (fun l s => s.flushLine l))

/-- FLUSH written with FLUSH_MASK; while a flush runs, a second one is held (R14), and a further one merges with it (DESIGN
CHOICE, log 79). -/
def State.startFlush (s : State) (mask : BitVec 5) : State :=
  let s1 := s.onChord (fun h => { h with flushMask := mask })
  if s.chord.flush then s1.onChord (fun h => { h with flushHeld := true }) else s1.beginFlush

def execFlush (mask : BitVec 5) (s : State) : Out := .next ((s.stewWrite blkChord).startFlush mask)

/-- No home tracks a line for the flushed agents, and none serves a request of theirs (R197). -/
def State.flushedAll (s : State) : Bool :=
  slices.all (fun i =>
    let h := s.chord.slice[i]
    h.tracked.all (fun l => h.holders l &&& s.chord.flushUse == 0) && h.flushed.isEmpty &&
      h.txns.all (fun t => match cacheOf t.agent with | some c => !s.chord.flushUse.getLsbD c.val | none => true))

/-- FLUSH clears once every home is done (R197); a held one starts (R14). -/
def execFlushDone (s : State) : Out :=
  if s.chord.flush && s.flushedAll then
    if s.chord.flushHeld then .next s.beginFlush else .next (s.onChord (fun h => { h with flush := false }))
  else .next s

/-- Every line of a slice is taken back from every holder (Table 08-8). -/
def State.beginSliceFlush (s : State) (i : SliceId) : State :=
  let s1 := s.onSlice i (fun h => { h with flushing := true, flushHeld := false })
  s1.each s1.chord.slice[i].tracked (fun l s => s.flushLine l)

/-- SLICE_FLUSH; while one runs, a second is held (R14). -/
def State.startSliceFlush (s : State) (i : SliceId) : State :=
  if s.chord.slice[i].flushing then s.onSlice i (fun h => { h with flushHeld := true }) else s.beginSliceFlush i

def execSliceFlush (i : SliceId) (s : State) : Out := .next ((s.stewWrite blkChord).startSliceFlush i)

/-- SLICE_FLUSH clears when no line of the slice has a holder; a held one starts (R14). -/
def execSliceFlushDone (i : SliceId) (s : State) : Out :=
  let h := s.chord.slice[i]
  if h.flushing && h.tracked.isEmpty && h.flushed.isEmpty then
    if h.flushHeld then .next (s.beginSliceFlush i) else .next (s.onSlice i (fun h => { h with flushing := false }))
  else .next s

/-- IDLE of SLICE_STATUS: no active tracker entry and no holder (Table 08-8). -/
def Slice.idle (h : Slice) : Bool := h.txns.isEmpty && h.tracked.isEmpty && h.flushed.isEmpty

def execQuiesce (i : SliceId) (on : Bool) (s : State) : Out := .next ((s.stewWrite blkChord).onSlice i (fun h => { h with quiesce := on }))

/-- MODE_REQ (R192): in FACTORY and DEVELOP a CHECKED slice is forced to a single tracker; it is ignored elsewhere. -/
def State.modeReq (s : State) (i : SliceId) (m : BitVec 2) : State :=
  let s1 := s.onSlice i (fun h => { h with modeReq := m })
  let h := s.chord.slice[i]
  if (s.rst.lc = .factory || s.rst.lc = .develop) && h.mode = .checked && h.switchTo.isNone && 2 ≤ m then
    s1.onSlice i (fun h => { h with switchTo := some (if m = 2 then .mirrorOnly else .vectorOnly) })
  else s1

def execModeReq (i : SliceId) (m : BitVec 2) (s : State) : Out := .next ((s.stewWrite blkChord).modeReq i m)

/-- The mode a slice has after a reset that empties its trackers: CHECKED while no tracker is retired and `back` holds, else the
mode it ran in (R192, R198, Table 08-6). -/
def Slice.modeAfter (h : Slice) (back : Bool) : SliceMode :=
  if back && !h.tmFailed && !h.vdFailed then .checked else h.mode

/-- The switch: every active transaction has completed; reservations lapse in MIRROR-ONLY, the unused tracker is no longer
maintained, held requests go on (R191, R192). -/
def execSliceModeSwitch (i : SliceId) (s : State) : Out :=
  let h := s.chord.slice[i]
  match h.switchTo with
  | some m =>
    if h.txns.any (·.active) then .next s
    else
      .next ((s.onSlice i (fun h => { h with
        mode := m, switchTo := none
        vd := if m = .mirrorOnly then [] else h.vd
        tm := if m = .vectorOnly then [] else h.tm
        reserved := if m = .mirrorOnly then [] else h.reserved })).pumpSlice i)
  | none => .next s

def execLostLogPop (i : Initiator) (s : State) : Out :=
  .next (popAnswer s i blkChord s.chord.lostLog (s.onChord (fun h => { h with lostLog := h.lostLog.pop })))

end Sys2Proof.Machine
end

