-- ==== Sys2Proof/Machine/Governor.lean ====
section
/-!
DEFINITION. The Governor (09): inputs, states, the two-key permit and epochs, commit tables and the clamp table, the command
path with its checks, zone trips and Fermata; with the season changes its transitions cause (10, Table 10-3).
-/
namespace Sys2Proof.Machine

/-! ## The pair, as the Governor sees it (13) -/

/-- The pair is formed (R325). -/
def State.formed (s : State) : Bool := s.mirl.pair == .paired

/-- A packet queued for the Mirror Link; nothing is queued while the link is down. -/
def State.mirlSend (s : State) (p : Packet) : State :=
  if s.mirl.linkUp then s.onMirl (fun m => { m with txq := m.txq ++ [p] }) else s

/-! ## The journal (R312, R347) -/

/-- A journal entry. -/
def journalWord (seq : Word) (kind : Byte) (detail : BitVec 24) (t : Time) : Native :=
  place 128 0 seq ||| place 128 32 kind ||| place 128 40 detail ||| place 128 64 t

/-- Entries recorded: the journal keeps the newest 4,096. -/
def Drunor.record (d : Drunor) (es : List Native) : Drunor :=
  let all := d.journal ++ es
  { d with journal := all.drop (all.length - 4096) }

/-- Drunor journals an entry. In a formed pair A numbers it and sends it on, B sends it to A, marked KIND + 8 (R347). -/
def State.journalAdd (s : State) (kind : Byte) (detail : BitVec 24) : State :=
  if !s.rst.drunor then s
  else if s.formed && s.rst.opt.role == .b then
    let e := journalWord 0 (kind + 8) detail s.metr.lineTime
    (s.onMirl (fun m => { m with unnumbered := m.unnumbered ++ [e] })).mirlSend (.journal [e])
  else
    let e := journalWord s.drunor.nextSeq kind detail s.metr.lineTime
    let s1 := s.onDrunor (fun d => { d.record [e] with nextSeq := d.nextSeq + 1 })
    s1.when s1.formed (·.mirlSend (.journal [e]))

/-- An entry whose DETAIL the spec leaves open: a free value (log 31). -/
def State.journalFree (s : State) (kind : Byte) : State :=
  (s.journalAdd kind ((Config.freeNative s.free).setWidth 24)).fresh

/-! ## Seasons (Table 10-3, R246) -/

/-- The season rules run: neither FERMATA nor CODA (R246). -/
def State.seasonFree (s : State) : Bool := s.gov.state != .fermata && !s.rst.coda

/-- A season entered. -/
def State.enterSeason (s : State) (x : Season) : State :=
  if s.cres.season = x then s else (s.onCres (fun c => { c with season := x })).evCres .seasonChange

/-- Grants the Steward and Chord need to run (Table 10-3, SPRING). -/
def State.askSystem (s : State) : State :=
  let need := fun (s : State) (r : Fin 29) => s.when (s.powerOf r != .run && s.powerOf r != .idle) (·.askGrant r)
  s.each slices (fun i s => need s (rqSlice i)) |> fun s => need s rqStw

/-- SPRING begins: the Steward and Chord are wanted in RUN, and every enabled trunk that is not UP is brought up. -/
def State.spring (s : State) : State :=
  let s1 := (s.enterSeason .spring).askSystem
  s1.each trunks (fun t s => s.when (s.trk[t].enable && s.trk[t].link == .down) (·.train t))

/-- The Governor has entered DISARMED: AUTUMN from SPRING or SUMMER, unless LINE_KEEP holds SUMMER (R245). -/
def State.autumn (s : State) : State :=
  if s.seasonFree && !s.cres.lineKeep && (s.cres.season == .spring || s.cres.season == .summer) then
    (s.enterSeason .autumn).onCres (fun c => { c with drainAt := s.metr.lineTime })
  else s

/-! ## States (Tables 09-1, 09-2) -/

/-- ARM_IN is asserted while both ARM channels are low (R204). -/
def State.armIn (s : State) : Bool := !s.aon.armA && !s.aon.armB

/-- The Governor leaves PERMITTED: EPOCH_DROP to the peer (R337). -/
def State.dropEpoch (s : State) : State :=
  s.when (s.gov.state == .permitted && s.formed) (fun s => s.mirlSend (.epochDrop s.gov.epoch))

/-- DISARMED (R203): EPOCH 0 from the next heartbeat, the zones low, a ZONE_OFF on every trunk in UP. -/
def State.disarm (s : State) : State :=
  (((s.dropEpoch.onGov (fun g => { g with state := .disarmed, epoch := 0 })).fixZones.zoneOffAll).autumn).journalFree 2

/-- FERMATA (R229). A further C5 changes nothing; an ARM cycle must begin after this entry (R205), and a new two-key permit is
needed after it (R231): a stage accepted before is gone. -/
def State.fermata (s : State) : State :=
  if s.gov.state = .fermata then s
  else
    let s1 := s.dropEpoch.onGov (fun g => { g with state := .fermata, epoch := 0, stage := none, tripOn := false, rbSkip := rbAllow })
    let s2 := s1.onAon (fun a => { a with latch := true, armOffSince := none, armOffLong := false, armCycle := false })
    ((s2.fixZones.zoneOffAll).evGov .fermata).journalFree 2

/-- A C4 reaction on a trunk (R69, R221): latch, veto, ZONE_OFF with ALL_CONC, held while the link is not up; the zone drops. An
isolated engine sends nothing (R70). -/
def State.zoneTrip (s : State) (t : TrkId) : State :=
  let s1 := s.onGov (fun g => { g with
    zoneTrip := g.zoneTrip ||| oneHot 16 t.val
    trainedSince := putBit g.trainedSince t.val false
    c4Since := g.c4Since ||| oneHot 16 t.val })
  let s2 := s1.onTrk t (fun k => { k with veto := true })
  ((s2.when (s2.trk[t].link != .tacet) (·.queueZoneOff t)).fixZones).evGov .zoneTrip

/-! ## GOV_CMD (R206 to R208, R231; result codes of Table 09-9) -/

/-- GOV_RESULT written. -/
def State.result (s : State) (code : BitVec 4) : State := s.onGov (fun g => { g with result := code })

/-- Drunor accepts ARM in this life-cycle state (Table 11-10). -/
def armAllowed (lc : LifeCycle) : Bool := lc != .blank && lc != .retired

/-- ARM: from DISARMED with ARM_IN asserted, the window closed and a live commit table held (Table 09-2, R208, R265). -/
def State.govArm (s : State) : State :=
  if !s.armIn then s.result 2
  else if s.gov.state != .disarmed || !s.gov.hasCommit || !armAllowed s.rst.lc then s.result 1
  else if s.gov.commitWin then s.result 9
  else (((s.onGov (fun g => { g with state := .armed })).result 0).spring).journalFree 2

/-- DISARM: in DISARMED it changes nothing; in FERMATA it is refused (log 19). -/
def State.govDisarm (s : State) : State :=
  match s.gov.state with
  | .armed | .permitted => s.disarm.result 0
  | .disarmed => s.result 0
  | .fermata => s.result 1

/-- The later of two epochs, over the 128 values after the earlier one; 0 is no epoch (R335; log 20). -/
def laterEpoch (a b : Byte) : Byte :=
  if a = 0 then b else if b = 0 then a else if (b - a).toNat ≤ 128 then b else a

/-- The epoch after one, 0 skipped (R207). -/
def nextEpoch (e : Byte) : Byte := if e = 255 then 1 else e + 1

/-- The next epoch of one parity (R338). -/
def nextParity (odd : Bool) (e : Byte) : Byte :=
  let n := nextEpoch e
  if n.getLsbD 0 = odd then n else nextEpoch n

/-- The epoch a device that is not in a formed pair advances to: one parity by role, any value in Solo (R207, R338). -/
def State.ownNext (s : State) : Byte :=
  match s.rst.opt.role with
  | .solo => nextEpoch s.aon.lastEpoch
  | .a => nextParity true s.aon.lastEpoch
  | .b => nextParity false s.aon.lastEpoch

/-- STAGE: with ARM_IN asserted in ARMED or PERMITTED. On role A of a formed pair within the time limit it proposes the pair
epoch (R336 step 2, Table 13-3 row 4). -/
def State.govStage (s : State) : State :=
  if !s.armIn then s.result 2
  else if s.gov.state != .armed && s.gov.state != .permitted then s.result 1
  else
    let s1 := (s.onGov (fun g => { g with stage := some (s.metr.lineTime, g.nonce), c4Since := 0 })).result 0
    if s.formed && s.rst.opt.role == .a && decide (s.mirl.offset.toInt.natAbs ≤ 50000) then
      let e := nextEpoch (laterEpoch s.aon.lastEpoch s.mirl.peerLast)
      (s1.onMirl (fun m => { m with proposed := some (e, s.gov.nonce, false) })).mirlSend (.epochPropose e s.gov.nonce)
    else s1

/-- Condition 4 of R206 in a formed pair: on A the peer has acknowledged the epoch proposed with this nonce; on B the peer's
EPOCH_GO brings the CONFIRM, and no other meets it (R336). -/
def State.epochAcked (s : State) : Bool :=
  match s.rst.opt.role, s.mirl.proposed with
  | .a, some (_, n, ok) => ok && n == s.gov.nonce
  | .b, _ => match s.mirl.going with | some (_, n, _, _) => n == s.gov.nonce | none => false
  | _, _ => false

/-- The refusal of a CONFIRM, if it is refused: state, stage, nonce, ARM_IN, peer (R206; the order is a choice, log 21). -/
def State.confirmRefusal (s : State) : Option (BitVec 4) :=
  if s.gov.state != .armed && s.gov.state != .permitted then some 1
  else match s.gov.stage with
  | none => some 4
  | some (t, n) =>
    if 500 * Config.ticksPerMs < s.metr.lineTime.toNat - t.toNat then some 4
    else if n != s.gov.nonce then some 3
    else if !s.armIn then some 2
    else if s.formed && !s.epochAcked then some 5
    else none

/-- A hardware ZONE_OFF with ALL_CONC that waits for transmission. -/
def TxWord.zoneOffAll (w : TxWord) : Bool := w.owner.isNone && cmdAll w.word && cmdOpcode w.word == .zoneOff

/-- Zone trips whose cause has ended (R222): the veto and the ZONE_OFF held for the trip end with them (R69). -/
def State.clearTrips (s : State) : State :=
  let ended := fun (t : TrkId) => s.gov.zoneTrip.getLsbD t.val && s.trk[t].link == .up && s.gov.trainedSince.getLsbD t.val &&
    !s.unis.planShed.getLsbD t.val && !s.gov.c4Since.getLsbD t.val
  s.each (trunks.filter ended) (fun t s =>
    (s.onGov (fun g => { g with zoneTrip := putBit g.zoneTrip t.val false })).onTrk t (fun k => { k with veto := false, txq := k.txq.filter (fun w => !w.zoneOffAll) }))

/-- An accepted CONFIRM: PERMITTED, the stage consumed, the nonce echoed, zone trips cleared (R206, R222). -/
def State.permit (s : State) : State :=
  (((s.onGov (fun g => { g with state := .permitted, stage := none, echo := g.nonce })).clearTrips.fixZones).result 0).when
    (s.gov.state != .permitted) (·.journalFree 2)

/-- The epoch set (R207, R336). -/
def State.setEpoch (s : State) (e : Byte) : State :=
  (s.onGov (fun g => { g with epoch := e, pairBlocked := false })).onAon (fun a => { a with lastEpoch := e })

/-- The first heartbeat instant at least 2 ms after now (R336). -/
def State.switchInstant (s : State) : Time :=
  let p := Config.ticksPerMs
  BitVec.ofNat 64 ((s.metr.lineTime.toNat + 2 * p + p - 1) / p * p)

/-- CONFIRM (R206). On role A of a formed pair the acceptance waits for the switch instant (R336 steps 3 and 4). -/
def State.govConfirm (s : State) : State :=
  match s.confirmRefusal with
  | some code => (s.onGov (fun g => { g with stage := none })).result code
  | none =>
    match s.formed && s.rst.opt.role == .a, s.mirl.proposed with
    | true, some (e, n, _) =>
      let t := s.switchInstant
      (s.onMirl (fun m => { m with going := some (e, n, t, false), proposed := none })).mirlSend (.epochGo e n t)
    | _, _ =>
      if s.formed && s.rst.opt.role == .b then s.permit
      else (s.permit.setEpoch s.ownNext).onMirl (fun m => { m with soloEpoch := m.soloEpoch || s.rst.opt.role != .solo })

/-- No level cause of R231 step 1 remains. -/
def State.causesClear (s : State) : Bool :=
  (match s.aon.estopOkSince with | some t => decide (50 * Config.ticksPerMs ≤ s.metr.lineTime.toNat - t.toNat) | none => false) &&
    s.aon.armA == s.aon.armB && s.aon.railBad == 0 && !s.aon.hot && !s.aon.refBad && s.aon.pllBad == 0 && !s.aon.outRb

/-- CLEAR_FERMATA (R231). In Coda the Governor is held (R290). -/
def State.govClear (s : State) : State :=
  if s.gov.state != .fermata || s.rst.coda then s.result 1
  else if !s.causesClear then s.result 6
  else if !(s.aon.armCycle && s.armIn) then s.result 7
  else
    let s1 := (s.onGov (fun g => { g with state := .armed, stage := none, tripOn := true, rbSkip := rbAllow })).onAon (fun a =>
      { a with latch := false })
    (s1.fixZones.result 0).journalFree 2

/-- COMMIT_OPEN: in DISARMED or FERMATA (R208). -/
def State.commitOpen (s : State) : State :=
  match s.gov.state with
  | .disarmed | .fermata => (s.onGov (fun g => { g with commitWin := true })).result 0
  | _ => s.result 1

/-- The committed clamp words. -/
def Gov.clampData (g : Gov) : Vector Native 16 := g.clamp.map (fun c => c.deliver.1)

/-- All staging discarded: every staging copy holds the live contents again (R208). -/
def State.discardStaging (s : State) : State :=
  let s1 := s.onGov (fun g => { g with
    rateStaged := g.rate, rideFramesS := g.rideFrames, clampStaged := g.clampData })
  let s2 := (s1.onHub (fun h => { h with escNS := h.escN, escWinS := h.escWin, clsStaged := h.cls })).onUnis (fun u =>
    { u with planStaged := u.plan })
  let s3 := s2.onMetr (fun m => { m with sweepSelS := m.sweepSel })
  let s4 := s3.each clusters (fun c s => s.onCore c (fun k => { k with wdogStaged := k.wdogLimit }))
  s4.each trunks (fun t s => s.onTrk t (fun k => { k with
    sentVmaxS := k.sentVmax, sentVminS := k.sentVmin, sentTmaxS := k.sentTmax }))

/-- The live-Voice mask of a commit: every Voice but those not live or out (R119). -/
def State.commitMask (s : State) : BitVec 4 := ~~~ (s.unis.notLive ||| s.unis.tacet.setWidth 4)

/-- The plan of a mask. -/
def State.planOf (s : State) (m : BitVec 4) : Plan := getN s.unis.plan m.toNat ⟨0, 0, 0, false⟩

/-- Every staging copy in every block becomes live (R208); ownership comes from the plan of the live mask (R119), and SWEEP_SEL
applies from the next frame boundary (R237, R253). -/
def State.applyStaging (s : State) : State :=
  let s1 := s.onGov (fun g => { g with
    rate := g.rateStaged, rideFrames := g.rideFramesS
    clamp := g.clampStaged.map (fun w => ⟨putBit w 104 false, 0⟩), clampFailed := 0
    clampCrc := crc32cWords g.clampStaged.toList, hasCommit := true })
  let s2 := s1.onHub (fun h => { h with escN := h.escNS, escWin := h.escWinS, cls := h.clsStaged })
  let s3 := s2.onUnis (fun u => { u with plan := u.planStaged })
  let m := s3.commitMask
  let p := s3.planOf m
  let s4 := s3.onUnis (fun u => { u with
    alive := m, owner := p.owners, planMask := m, planSweep := p.sweep, planShed := p.shed, planPending := false
    committed := true })
  let s5 := s4.onMetr (fun x => { x with sweepSel := x.sweepSelS, sweepNext := some x.sweepSelS })
  let s6 := s5.each clusters (fun c s => s.onCore c (fun k => { k with wdogLimit := k.wdogStaged }))
  let s7 := s6.each trunks (fun t s => s.onTrk t (fun k => { k with
    sentVmax := k.sentVmaxS, sentVmin := k.sentVminS, sentTmax := k.sentTmaxS }))
  (s7.when (!p.valid || m == 0) (·.fermata)).fixZones

/-- COMMIT_CLOSE (R208): whole or not at all; refused in ARMED and PERMITTED (Table 09-1). -/
def State.commitClose (s : State) : State :=
  if !s.gov.commitWin || s.gov.state == .armed || s.gov.state == .permitted then s.result 1
  else
    let s1 := s.onGov (fun g => { g with commitWin := false })
    if crc32cWords s.gov.clampStaged.toList = s.gov.clampCrcExp then s1.applyStaging.result 0
    else (s1.discardStaging.detect .clampCrc 0 0).result 8

def execGovArm (s : State) : Out := .next (s.stewWrite blkGov).govArm
def execGovDisarm (s : State) : Out := .next (s.stewWrite blkGov).govDisarm
def execGovStage (s : State) : Out := .next (s.stewWrite blkGov).govStage
def execGovConfirm (s : State) : Out := .next (s.stewWrite blkGov).govConfirm
def execGovClearFermata (s : State) : Out := .next (s.stewWrite blkGov).govClear
def execCommitOpen (s : State) : Out := .next (s.stewWrite blkGov).commitOpen
def execCommitClose (s : State) : Out := .next (s.stewWrite blkGov).commitClose

/-! ## ARM and ESTOP inputs (R204, R205, Table 09-4) -/

/-- A level cause of R231 step 1 is present: the steps begin anew with its end, so an ARM cycle before it counts no more. -/
def State.causeBack (s : State) : State := s.onAon (fun a => { a with armOffLong := false, armCycle := false })

/-- A new accepted level of an ARM channel: the ARM cycle (R205), the end of a discrepancy, and R203 when ARM_IN is released
(log 59). An ARM cycle completes at the next assertion of ARM_IN or not at all. -/
def execArmInputChange (chB high : Bool) (s : State) : Out :=
  let now := s.metr.lineTime
  let a := if chB then { s.aon with armB := high } else { s.aon with armA := high }
  let off := a.armA && a.armB
  let wasOff := s.aon.armA && s.aon.armB
  let long := match s.aon.armOffSince with
    | some t => decide (200 * Config.ticksPerMs ≤ now.toNat - t.toNat)
    | none => false
  let a1 :=
    if off && !wasOff then { a with armOffSince := some now, armOffLong := false }
    else if wasOff && !off then { a with armOffSince := none, armOffLong := long }
    else a
  let s1 := { s with aon := { a1 with armDisc := a1.armDisc && a1.armA != a1.armB, armCycle := a1.armCycle && a1.armA == a1.armB } }
  let done := s1.armIn && !s.armIn && a1.armOffLong && s1.causesClear
  let s2 := s1.when (s1.armIn && !s.armIn) (·.onAon (fun x => { x with armCycle := x.armCycle || done, armOffLong := false }))
  .next (s2.when (((s.armIn && !s1.armIn) || (off && !wasOff)) && (s.gov.state == .armed || s.gov.state == .permitted)) (·.disarm))

/-- A new accepted level of an ESTOP channel: ESTOP is reported when an input becomes active (Table 09-4). -/
def execEstopInputChange (chB high : Bool) (s : State) : Out :=
  let a := if chB then { s.aon with estopB := high } else { s.aon with estopA := high }
  let ok := a.estopA && a.estopB
  let was := s.aon.estopA && s.aon.estopB
  let a1 := { a with
    estopOkSince := if ok then (if was then a.estopOkSince else some s.metr.lineTime) else none
    estopDisc := a.estopDisc && a.estopA != a.estopB }
  let active := !high && (if chB then s.aon.estopB else s.aon.estopA)
  .next ((({ s with aon := a1 }).when (!ok) State.causeBack).when active (·.detect .estop 0 0))

/-- The ESTOP channels have differed for 50 ms (Table 09-4). -/
def execEstopDisc (s : State) : Out :=
  if s.aon.estopA != s.aon.estopB then
    .next ((s.onAon (fun a => { a with estopDisc := true })).detect .estopDisc 0 0)
  else .next s

/-- The ARM channels have differed for 50 ms (Table 09-4). -/
def execArmDisc (s : State) : Out :=
  if s.aon.armA != s.aon.armB then .next ((s.onAon (fun a => { a with armDisc := true })).detect .armDisc 0 0) else .next s

/-! ## Output read-back (R220) -/

/-- The level TRIPA is driven with: outside FERMATA a 1 kHz square wave of the Metronome's time base, 50 % high, and TRIPB the same
wave 250 us later; both low while stopped (R218; log 81 on its phase). -/
def State.tripA (s : State) : Bool := s.gov.tripOn && decide (s.metr.lineTime.toNat % 24000 < 12000)
def State.tripB (s : State) : Bool := s.gov.tripOn && decide ((s.metr.lineTime.toNat + 18000) % 24000 < 12000)

/-- One sample of the TRIP and ZONE pins against the levels they are driven with. Two consecutive differing samples raise OUT_RB;
samples within 100 us of a commanded change do not count. -/
def execOutputReadback (tripA tripB : Bool) (zone : BitVec 16) (s : State) : Out :=
  let bad := tripA != s.tripA || tripB != s.tripB || zone != s.gov.zone
  if s.gov.rbSkip != 0 then .next (s.onGov (fun g => { g with rbSkip := g.rbSkip - 1, rbBad := 0 }))
  else if bad then
    let s1 := s.onGov (fun g => { g with rbBad := g.rbBad + 1 })
    .next (s1.when (s.gov.rbBad == 1) (fun s => (s.onAon (fun a => { a with outRb := true })).causeBack.detect .outRb 0 0))
  else .next ((s.onGov (fun g => { g with rbBad := 0 })).onAon (fun a => { a with outRb := false }))

/-! ## The channel map and ranges (R118, Table 05-5) -/

/-- A range's entry as a lookup finds it: UNIS's copy; where memory differs from it since the last reload, either (R20, log 7). -/
def State.rangeEntry (s : State) (r : BitVec 6) : Native :=
  let old := getN s.unis.chmap r.toNat 0
  if s.unis.chmapBase = 0 || s.unis.mapHeld then old
  else match s.chordAt (s.unis.chmapBase.toNat * 1024 + 16 * r.toNat) with
  | some (now, false) => if now = old then old else if Config.staleLookup s.free then now else old
  | _ => old

def rangeFirst (e : Native) : Nat := (field e 0 17).toNat
def rangeLast (e : Native) : Nat := (field e 32 17).toNat
def rangeValid (e : Native) : Bool := e.getLsbD 64

/-- The trunk of a range. -/
def rangeTrunk (e : Native) : TrkId := ⟨(field e 13 4).toNat, (field e 13 4).isLt⟩

/-- The Voice that owns a range (Table 05-7 OWNER). -/
def State.ownerOf (s : State) (r : BitVec 6) : Vc := ⟨(field s.unis.owner (2 * r.toNat) 2).toNat, (field s.unis.owner (2 * r.toNat) 2).isLt⟩

/-- Every range. -/
def ranges : List (BitVec 6) := (List.range 64).map (BitVec.ofNat 6)

/-! ## The clamp (R209, R210) -/

/-- A read of a live clamp entry: an uncorrectable or poisoned one retires its class (R210); none then. -/
def State.clampRead (s : State) (k : Nat) : State × Option Native :=
  let c := getN s.gov.clamp k zeroCell
  let s1 := s.account 0x52 (BitVec.ofNat 24 k) k c.syn .gov
  match c.deliver with
  | (w, false) => (s1, some w)
  | (_, true) =>
    (((s1.onGov (fun g => { g with clampFailed := g.clampFailed ||| oneHot 16 k })).evGov .classFailed).detect .clampEntry 0
      (BitVec.ofNat 32 k), none)

/-- A set-point lies inside a clamp entry (R209). -/
def clampPass (e : Native) (w : Native) : Bool :=
  let i := (cmdIset w).toInt
  e.getLsbD 96 && decide (cmdVset w ≤ field e 0 20) && decide (-((field e 64 24).toNat : Int) ≤ i) &&
    decide (i ≤ ((field e 32 24).toNat : Int))

/-- Check 8 for a word. -/
def State.checkClamp (s : State) (w : Native) : State × Bool :=
  let k := (cmdClass w).toNat
  if s.gov.clampFailed.getLsbD k then (s, false)
  else match s.clampRead k with
  | (s1, some e) => (s1, clampPass e w)
  | (s1, none) => (s1, false)

/-! ## The command path (R211 to R217, Table 09-3) -/

/-- Counter and fault source of a check (Tables 09-3, 09-7). -/
def checkFault : Nat → GovCnt × FaultSource
  | 1 => (.poison, .cmdPoison) | 2 => (.format, .cmdFormat) | 3 => (.origin, .cmdOrigin) | 4 => (.overflow, .cmdOverflow)
  | 6 => (.state, .cmdState) | 7 => (.lockout, .cmdLockout) | 8 => (.clamp, .cmdClamp) | _ => (.rate, .cmdRate)

/-- A blocked word (R214): counted, copied, CMD_BLOCKED on the cluster's ICU, reported with its channel. -/
def State.block (s : State) (c : Cl) (t : TrkId) (w : Native) (check : Nat) : State :=
  let f := checkFault check
  let copy := putField (putField w 112 (BitVec.ofNat 4 check)) 116 (BitVec.ofNat 4 c.val)
  let s1 := ((s.cntGov f.1).onGov (fun g => { g with lastBlocked := copy })).evGov .blocked
  let s2 := (s1.onCore c (fun k => k.pend 14)).wakeCheck c
  s2.detect f.2 c.val (BitVec.ofNat 32 (channelId t (cmdConc w) (cmdSlot w)))

/-- Staging entries a cluster's words occupy until they are sent (R211). -/
def State.occupied (s : State) (c : Cl) : Nat :=
  s.gov.staged[c].length + (trunks.map (fun t => (s.trk[t].txq.filter (fun w => w.owner == some c)).length)).foldl (· + ·) 0

/-- Staging entries of a cluster: 4,096 for a Voice, 512 for the Steward (R211). -/
def stagingSize (c : Cl) : Nat := if c = stw then 512 else 4096

/-- Check 2 of Table 09-3. -/
def formatOk (w : Native) : Bool :=
  field w 96 16 == 0 && field w 86 2 == 0 && cmdOpcode w != .reserved && (!cmdAll w || cmdOpcode w == .zoneOff)

/-- Check 3 for a Voice's word. -/
def State.originOk (s : State) (v : Vc) (r : BitVec 6) (w : Native) : Bool :=
  let e := s.rangeEntry r
  let t := rangeTrunk e
  let id := channelId t (cmdConc w) (cmdSlot w)
  cmdOrigin w == BitVec.ofNat 4 v.val && rangeValid e && s.ownerOf r == v && decide (rangeFirst e ≤ id) &&
    decide (id ≤ rangeLast e) &&
    (!cmdAll w || (rangeFirst e == t.val * 8192 && rangeLast e == t.val * 8192 + 8191))

/-- The verdict word of a channel as the Governor reads it on port A: LOCKOUT and ENERGIZED_MAP; a poisoned word counts as
LOCKOUT set (R215; log 22). -/
def State.verdictBits (s : State) (ch : Nat) : Bool × Bool :=
  let v := s.peekWord ⟨.verdict, ch / 4⟩
  (v.2 || v.1.getLsbD (32 * (ch % 4) + 31), !v.2 && v.1.getLsbD (32 * (ch % 4) + 30))

/-- Check 6 (R212, R268, R334, R337); after the peer's loss, energizing waits for the survivor's solo epoch (R30, R33, R338). -/
def State.stateOk (s : State) (t : TrkId) : Bool :=
  s.gov.state == .permitted && s.gov.zone.getLsbD t.val && !s.gov.riding && !s.gov.pairBlocked && !s.mirl.soloPending &&
    !(s.formed && s.rst.opt.role == .b)

/-- The word joins its trunk's queue with EPOCH and FRAME_TAG, and REL_CMD counts (R212). -/
def State.letGo (s : State) (c : Cl) (t : TrkId) (w : Native) (r : Option (BitVec 6)) : State :=
  (s.queueWord t ⟨stamp s w, if protective w then .protective else .other, some c, r⟩).cntRelCmd

/-- Checks 5 to 9 at release, and the number of the check that failed, if any (R212). -/
def State.release (s : State) (c : Cl) (t : TrkId) (w : Native) (r : Option (BitVec 6)) : State × Nat :=
  if s.trk[t].link = .tacet then (s.cntGov .tacet, 5)
  else if !energizing w then (s.letGo c t w r, 0)
  else if !s.stateOk t then (s.block c t w 6, 6)
  else
    let ch := channelId t (cmdConc w) (cmdSlot w)
    let s1 := s.noteRead ⟨.verdict, ch / 4⟩ .gov
    let (lock, on) := s.verdictBits ch
    if lock || (cmdOpcode w == .setPoint && !on) then (s1.block c t w 7, 7)
    else
      let (s2, ok) := s1.checkClamp w
      if !ok then (s2.block c t w 8, 8)
      else if cmdOpcode w == .energize then
        if s2.gov.tokens = 0 then (s2.block c t w 9, 9)
        else ((s2.onGov (fun g => { g with tokens := g.tokens - 1 })).letGo c t w r, 0)
      else (s2.letGo c t w r, 0)

/-- The range fallback is triggered (R214). -/
def State.triggerFallback (s : State) (r : BitVec 6) : State :=
  s.onGov (fun g => { g with fallback := g.fallback ||| oneHot 64 r.toNat })

/-- Intake of a Voice's word: checks 1 to 4, then staging until its range's FDONE (R211, R212, R214). -/
def State.intakeVoice (s : State) (v : Vc) (r : BitVec 6) (w : Native) (poison : Bool) : State :=
  let c := vcl v
  let t := rangeTrunk (s.rangeEntry r)
  if poison then (s.block c t w 1).triggerFallback r
  else if !formatOk w then s.block c t w 2
  else if !s.originOk v r w then s.block c t w 3
  else if stagingSize c ≤ s.occupied c ∨ 2048 ≤ getN s.gov.pushed r.toNat 0 then
    (s.block c t w 4).when (protective w) (·.triggerFallback r)
  else s.onGov (fun g => { g with
    staged := upd g.staged c (· ++ [⟨r, w⟩]), pushed := updN g.pushed r.toNat (· + 1) })

/-- Intake of a Steward's word for a trunk: released at intake (R211). gs[5:4] must be zero (checked with the format, log 23). -/
def State.intakeSteward (s : State) (gs : BitVec 6) (w : Native) (poison : Bool) : State × Nat :=
  let t : TrkId := ⟨(field gs 0 4).toNat, (field gs 0 4).isLt⟩
  if poison then (s.block stw t w 1, 1)
  else if !formatOk w || field gs 4 2 != 0 then (s.block stw t w 2, 2)
  else if cmdOrigin w != 4 then (s.block stw t w 3, 3)
  else if stagingSize stw ≤ s.occupied stw then (s.block stw t w 4, 4)
  else s.release stw t w none

/-- A word that leaves the egress hold, or is pushed by the Steward (R151, R211). -/
def State.intake (s : State) (c : Cl) (gs : BitVec 6) (w : Native) (poison : Bool) : State :=
  match voiceOf c with
  | some v => s.intakeVoice v gs w poison
  | none => (s.intakeSteward gs w poison).1

/-- The concentrators of a range, FIRST[12:8] to LAST[12:8]. -/
def rangeConcs (e : Native) : List (BitVec 5) :=
  let a := (field e 8 5).toNat
  let b := (field e 40 5).toNat
  (List.range (b + 1 - a)).map (fun i => BitVec.ofNat 5 (a + i))

/-- A range's FDONE at the Governor: its staged words in push order through checks 5 to 9, then its fallback (R211, R214). -/
def State.releaseRange (s : State) (v : Vc) (r : BitVec 6) : State :=
  let c := vcl v
  let e := s.rangeEntry r
  let t := rangeTrunk e
  let mine := s.gov.staged[c].filter (fun x => x.range == r)
  let s1 := s.onGov (fun g => { g with staged := upd g.staged c (·.filter (fun x => x.range != r)) })
  let s2 := s1.each mine (fun x s => (s.release c t x.word (some r)).1)
  if s.gov.fallback.getLsbD r.toNat then
    (s2.each (rangeConcs e) (fun k s => s.queueWord t ⟨hwWord s 0 k 6 0 false, .protective, none, some r⟩)).onGov (fun g =>
      { g with fallback := putBit g.fallback r.toNat false })
  else s2

/-- A Voice's staged words discarded: every word of its ranges without FDONE (R217, R268). -/
def State.discardStaged (s : State) (v : Vc) : State :=
  let n := s.gov.staged[vcl v].length
  (s.onGov (fun g => { g with staged := upd g.staged (vcl v) (fun _ => []) })).cntGov .outDiscard n

end Sys2Proof.Machine
end

