-- ==== Sys2Proof/Machine/Requests.lean ====
section
/-!
DEFINITION. Reset requests and the reach table (R257 to R259, R264, R265), and the host event FIFO (R316): what the Fault Hub,
Unison and the mailbox share.
-/
namespace Sys2Proof.Machine

/-! ## Levels and reach (Tables 11-1, 11-2) -/

def Level.toNat : Level → Nat
  | .l0 => 0 | .l1 => 1 | .l2 => 2 | .l3 => 3 | .l4 => 4

def levelOf : Nat → Level
  | 0 => .l0 | 1 => .l1 | 2 => .l2 | 3 => .l3 | _ => .l4

/-- The deeper of two levels. -/
def Level.deeper (a b : Level) : Level := if a.toNat ≤ b.toNat then a else b

/-- Steps of a thermometer field; another pattern acts as 0b111 (R258). -/
def thermometer (f : BitVec 3) : Nat :=
  match f.toNat with
  | 0 => 0 | 1 => 1 | 3 => 2 | _ => 3

/-- The default reach of a source (Table 11-2); none where it does not deepen. -/
def defaultReach : Nat → Option Nat
  | 0 | 1 => some 0
  | 2 => some 1
  | 3 | 8 => some 2
  | 5 => some 3
  | 4 | 9 => some 4
  | _ => none

/-- The effective reach of a source (R258). -/
def State.reach (s : State) (src : Fin 10) : Option Level :=
  let k := if src.val < 2 then 0 else thermometer s.rst.fuses.reach[src]
  match defaultReach src.val with
  | some d => some (levelOf (d - k))
  | none => if k = 0 then none else some (levelOf (3 - k))

/-- A level requested by a source lies in its Requested column (Table 11-2). -/
def mayRequest (src : Fin 10) (l : Level) : Bool :=
  match src.val with
  | 0 | 1 => l == .l0
  | 2 => l == .l1
  | 3 | 8 => l == .l1 || l == .l2
  | 4 => l != .l0
  | _ => true

/-- The target of an L3 or L4 names a block (Table 11-4), and its level. -/
def targetLevel (t : Byte) : Option Level :=
  let n := t.toNat
  if n ≤ 4 ∨ (8 ≤ n ∧ n ≤ 0x0B) ∨ (0x10 ≤ n ∧ n ≤ 0x1F) then some .l3
  else if 0x20 ≤ n ∧ n ≤ 0x26 then some .l4 else none

/-- A slice of a reset target. -/
def sliceOfTarget (t : Byte) : Option SliceId :=
  if h : 8 ≤ t.toNat ∧ t.toNat < 12 then some ⟨t.toNat - 8, by omega⟩ else none

/-- GOV_IDLE and FHUB_IDLE of Table 11-4. -/
def State.govIdle (s : State) : Bool :=
  (s.gov.state == .disarmed || s.gov.state == .fermata) && clusters.all (fun c => s.gov.staged[c].isEmpty) &&
    trunks.all (fun t => s.trk[t].txq.isEmpty) && !s.gov.commitWin
def State.fhubIdle (s : State) : Bool := s.hub.pending.isEmpty

/-- The idle check of a target (Table 11-4); wrapper-completed targets have none (R264). -/
def State.idleCheck (s : State) (t : Byte) : Bool :=
  match sliceOfTarget t with
  | some i => s.chord.slice[i].idle
  | none => if t = 0x25 then s.govIdle else if t = 0x26 then s.fhubIdle else true

/-- A level and target that a reset in progress covers (R259, Table 11-1). -/
def covers (q : RstSeq) (l : Level) (target : Byte) : Bool :=
  match q.level with
  | .l0 => true
  | .l1 => l != .l0
  | .l2 =>
    match l with
    | .l2 => true
    | .l3 | .l4 => !(decide (0x10 ≤ target.toNat) && decide (target.toNat ≤ 0x1F)) && target != 0x25 && target != 0x26
    | _ => false
  | .l3 | .l4 => (l == .l3 || l == .l4) && target == q.target

/-- The source recorded in RST_CAUSE (R259). -/
def State.recordCause (s : State) (src : Fin 10) : State :=
  s.onRst (fun r => { r with cause := r.cause ||| oneHot 10 src.val })

/-- The option phase runs (R270). -/
def State.inOptionPhase (s : State) : Bool := match s.rst.seq with | some q => q.level == .l0 && q.step == 2 | none => false

/-- A reset request of a source: outside its column it is ignored; the level applied is the deeper of the request and the reach
(R257); a request that a running reset covers is merged (R259), and in the option phase it restarts that at RESET_ASSERTION (R270); one
that fails its idle check is refused (R265). The hold of R271 ends on POR only, or on RESET_N. -/
def State.requestReset (s : State) (src : Fin 10) (l : Level) (target : Byte) (por : Bool) : State :=
  if !mayRequest src l then s
  else if src = 9 && s.rst.lc != .factory && s.rst.lc != .develop then s
  else
    let lvl := match s.reach src with | some r => l.deeper r | none => l
    let single := lvl == .l3 || lvl == .l4
    let s1 := s.recordCause src
    let queued := fun (s : State) => s.onRst (fun r => { r with requests := r.requests ++ [⟨src, lvl, target, por⟩] })
    if single && (targetLevel target).isNone then s
    else if s.rst.optionHold && !por then s1
    else if s.inOptionPhase && !por then queued (s1.cntRst 1)
    else if (match s.rst.seq with | some q => !por && covers q lvl target | none => false) then s1.cntRst 1
    else if single && !s.idleCheck target then
      (s1.onRst (fun r => { r with refused := true })).when (sliceOfTarget target).isSome (·.evChord .resetRefused)
    else queued s1

/-- GO of RST_REQ (Table 11-17): LEVEL 5 to 7 lie in no Requested column and are ignored (R257). -/
def State.rstReqGo (s : State) (src : Fin 10) : State :=
  if 5 ≤ s.rst.reqLevel.toNat then s else s.requestReset src (levelOf s.rst.reqLevel.toNat) s.rst.reqTarget false

/-! ## Commands that a reset interrupts (R305) -/

/-- The assertion of an L2 or a Steward L3 while BUSY is set: the command ends INTERRUPTED, detail the level. -/
def State.interruptCommand (s : State) (level : Byte) : State :=
  s.onHmbx (fun h =>
    let h1 := { h with ready := false, cur := none, prepared := none, resetLater := none }
    if h.busy then { h1 with busy := false, lastTag := h.busyTag, lastStatus := level ++ (0x0B : Byte) } else h1)

/-- After the restart, Drunor stores INTERRUPTED as the response of the command recorded as in progress. -/
def State.storeInterrupted (s : State) : State :=
  s.onHmbx (fun h =>
    match h.inProgress with
    | some c => { h with inProgress := none, stored := some (c.crc, ⟨c.tag, c.opcode, 0x0B, field h.lastStatus 8 8, [], 0⟩) }
    | none => h)

/-! ## The event FIFO (R316) -/

/-- LINE_MS of Table 12-3. -/
def State.lineMs (s : State) : Word := BitVec.ofNat 32 (s.metr.lineTime.toNat / Config.ticksPerMs)

/-- Entries numbered as the FIFO stores them: LOST in the first, MORE in all but the last (or as pushed), SEQ rising. -/
def numberEvents (lost : Bool) (seq : BitVec 16) : List Native → List Native
  | [] => []
  | e :: es => putField (putBit (putBit e 8 lost) 9 (e.getLsbD 9 || !es.isEmpty)) 16 seq :: numberEvents false (seq + 1) es

/-- An event of k entries is appended whole or dropped whole (R316). -/
def State.pushEvent (s : State) (es : List Native) : State :=
  if s.hmbx.fifo.length + es.length ≤ 64 then
    s.onHmbx (fun h => { h with
      fifo := h.fifo ++ numberEvents h.evtLost h.evtSeq es
      evtSeq := h.evtSeq + BitVec.ofNat 16 es.length, evtLost := false })
  else (s.onHmbx (fun h => { h with evtLost := true })).cntHmbx .evtLost

end Sys2Proof.Machine
end

