-- ==== Sys2Proof/Machine/Unison.lean ====
section
/-!
DEFINITION. Voices, Unison and plans (05): a Voice goes out (R110), re-homing and plans (R121, R123), the return (R126), and the
Steward's voting, masking and L3 return (R113 to R117).
-/
namespace Sys2Proof.Machine

/-! ## A Voice goes out (R108, R110, R125, R217) -/

/-- CAUSE of OUT_INFO_n (Table 05-7). -/
inductive OutCause where
  | lockstep | split | rail | probe | watchdog | request
  /-- A fault whose class takes the Voice out and for which CAUSE has no code: a free value (log 24). -/
  | other
deriving DecidableEq, Repr

def State.outCode (s : State) : OutCause → BitVec 3
  | .lockstep => 1 | .split => 2 | .rail => 3 | .probe => 4 | .watchdog => 5 | .request => 6
  | .other => (Config.freeNative s.free).setWidth 3

/-- FRAME of OUT_INFO_n: the frame being judged; while none is judged the value is free (log 24). -/
def State.judgedFrame (s : State) : BitVec 16 :=
  match s.metr.judged with
  | some j => j.frame
  | none => (Config.freeNative s.free).setWidth 16

/-- The Voice in TACET: held egress never leaves, its ALIVE bit clears, its agent is dead for Chord (R195), its staged words are
discarded (R217), and the other clusters take VOICE_OUT (Table 06-10). A Voice already out stays as it is. -/
def State.voiceOut (s : State) (v : Vc) (cause : OutCause) (comp : BitVec 2) (seg : BitVec 5) : State :=
  if s.unis.tacet.getLsbD v.val then s
  else
    let c := vcl v
    let old := s.unis.out[v]
    let info : OutInfo := ⟨s.outCode cause, comp, s.judgedFrame, seg, satInc old.count, s.metr.lineTime⟩
    let was := s.unis.alive.getLsbD v.val
    let s1 := s.fresh.onUnis (fun u => { u with
      tacet := putBit u.tacet v.val true, alive := putBit u.alive v.val false
      outReset := putBit u.outReset v.val false, outProbed := putBit u.outProbed v.val false
      returnReq := putBit u.returnReq v.val false
      out := upd u.out v (fun _ => info)
      planPending := u.planPending || was })
    let s2 := s1.onCore c (fun k => { k with egress := [], blocked := false })
    let s3 := ((s2.killAgent c).discardStaged v).evUnis (.voiceOut v)
    (s3.each (clusters.filter (fun d => d != c && !s3.isolated d)) (fun d s => s.postEvent d 10 3)).journalFree 3

/-- The 1,024 bits of a bundle, groups and fields in the order of Table 05-2 from segment 0 up; unused lanes are zero (log 82). -/
def bundleBits (b : Bundle) : BitVec 1024 :=
  place 1024 0 b.fetch ||| place 1024 32 b.iControl |||
  place 1024 64 b.dAddr ||| place 1024 96 b.dData ||| place 1024 224 b.dEnables ||| place 1024 240 b.dKind |||
    place 1024 248 (bit b.dPoison) |||
  place 1024 256 b.bAddr ||| place 1024 288 b.bData ||| place 1024 416 b.bEnables ||| place 1024 432 b.bKind |||
  place 1024 448 b.cohType ||| place 1024 456 b.cohAddr ||| place 1024 488 b.cohData ||| place 1024 616 (bit b.cohPoison) |||
  place 1024 640 b.cmdWord ||| place 1024 768 (bit b.cmdValid) ||| place 1024 769 b.cmdRange |||
  place 1024 800 b.commitAddr ||| place 1024 832 b.commitDest ||| place 1024 838 b.commitResult |||
    place 1024 966 (bit b.commitTag) ||| place 1024 967 b.commitValid |||
  place 1024 992 b.frameDone ||| place 1024 999 b.cue ||| place 1024 1015 b.icuAck ||| place 1024 1023 (bit b.exception)

/-- The bits in which a comparator sees the two sides differ that differ in `d`. -/
def seenDiff (u : Comparator) (d : BitVec 1024) : BitVec 1024 := (d ^^^ u.flips) &&& ~~~u.blind

/-- The dual-rail code of a comparator over two sides that differ in `d`: 0b01 agree, 0b10 mismatch (R108). -/
def railCode (u : Comparator) (d : BitVec 1024) : BitVec 2 := u.rail.getD (if seenDiff u d = 0 then 1 else 2)

/-- A comparator deviates in the probe of a bit: agreement, mismatch in the cycle of the common injection, agreement (R112). -/
def probeDeviates (u : Comparator) (idx : BitVec 10) : Bool := railCode u 0 != 1 || railCode u (oneHot 1024 idx.toNat) != 2

/-- The bits in which the two cores' bundles differ. -/
def bundleDiff (p : BundlePair) : BitVec 1024 := bundleBits p.lead ^^^ bundleBits p.trail

/-- The lowest of the 32 segments with a differing bit. -/
def lowestSegment (d : BitVec 1024) : Option (BitVec 5) :=
  ((List.range 32).find? (fun i => field d (32 * i) 32 != 0)).map (BitVec.ofNat 5)

/-- Table 05-3: the fault source of a pair of codes, and the cause; none when both agree. -/
def unisonOutcome (una unb : BitVec 2) : Option (FaultSource × OutCause) :=
  let bad := fun (x : BitVec 2) => x == 0 || x == 3
  if bad una || bad unb then some (.unisonRail, .rail)
  else if una = 1 && unb = 1 then none
  else if una = 2 && unb = 2 then some (.lockstep, .lockstep)
  else some (.unisonSplit, .split)

/-- A Voice's comparators as a cycle shows them: a fault of one stands until a later cycle shows it gone (DESIGN CHOICE, log 77). -/
def State.seeComparators (s : State) (v : Vc) (una unb : Comparator) : State :=
  s.onUnis (fun u => { u with una := upd u.una v (fun _ => una), unb := upd u.unb v (fun _ => unb) })

/-- UNISON_MISMATCH: UNA and UNB compare the lead core's bundle of cycle n with the trailing core's of cycle n + 2 (R107); every row
of Table 05-3 but the first takes the Voice out (R108, R110). SEGMENT without a differing segment is a free value (log 24). -/
def execUnisonMismatch (v : Vc) (una unb : Comparator) (cores : BundlePair) (s : State) : Out :=
  let d := bundleDiff cores
  let s0 := s.seeComparators v una unb
  match unisonOutcome (railCode una d) (railCode unb d) with
  | none => .next s0
  | some (src, cause) =>
    if s.unis.tacet.getLsbD v.val then .next s0
    else
      let seg := (lowestSegment (seenDiff una d ||| seenDiff unb d)).getD ((Config.freeNative s.free).setWidth 5)
      let s1 := s0.fresh.voiceOut v cause (bit (railCode unb d != 1) ++ bit (railCode una d != 1)) seg
      let s2 := match cause with
        | .split => s1.evUnis .split
        | .rail => s1.evUnis .rail
        | _ => s1
      .next (s2.detect src v.val 0)

/-- OUT_REQ takes VOICE_n, n = OUT_V, out (R125). -/
def State.outReq (s : State) : State := s.voiceOut s.unis.outV .request 0 0

def execOutReq (s : State) : Out := .next (s.stewWrite blkUnis).outReq

/-! ## Plans (R121, R123, R31) -/

/-- A range's bit in the REHOME registers cleared (R123). -/
def State.clearRehome (s : State) (r : BitVec 6) : State :=
  s.onUnis (fun u => { u with rehome := u.rehome.map (fun m => putBit m r.toNat false) })

/-- A range given to a survivor: its REHOME bit and the survivor's REHOME event (R123). -/
def State.rehome (s : State) (r : BitVec 6) (v : Vc) : State :=
  ((s.clearRehome r).onUnis (fun u => { u with rehome := upd u.rehome v (fun m => m ||| oneHot 64 r.toNat) })).postEvent
    (vcl v) 11 4

/-- The ranges of the judged frame that lack FDONE. -/
def State.unfinished (s : State) : List (BitVec 6) :=
  match s.metr.judged with
  | some j => ranges.filter (fun r => j.ranges.getLsbD r.toNat && !j.fdone.getLsbD r.toNat)
  | none => []

/-- The deadline of the judged frame and the seal of the open frame moved to the same later instant; the Metronome runs at the
longer period from then on (R31). -/
def State.stretchTo (s : State) (sel : BitVec 2) (at' : Time) : State :=
  s.onMetr (fun m => { m with
    sweep := sel, sweepNext := none, nextAt := at', moved := true, judged := m.judged.map (fun j => { j with deadline := at' }) })

/-- A plan's SWEEP longer than the period in force (R31); the peer is told (R340). -/
def State.stretch (s : State) (sel : BitVec 2) : State :=
  if sel ≤ s.metr.sweep then s
  else match s.metr.openAt with
  | none => s.onMetr (fun m => { m with sweepNext := some sel })
  | some t =>
    let s1 := s.stretchTo sel (t + period sel)
    s1.when s1.formed (·.mirlSend (.sweep sel (t + period sel)))

/-- The plan of a mask applied: ownership, SHED, SWEEP and the registers that show them; shed trunks are tripped (R121, R123).
An invalid plan, or mask 0, means FERMATA. -/
def State.applyPlan (s : State) (m : BitVec 4) : State :=
  let p := s.planOf m
  if m = 0 || !p.valid then (s.onUnis (fun u => { u with planMask := m, planPending := false })).fermata
  else
    let lost := s.unfinished.filter (fun r => !(m.getLsbD (s.ownerOf r).val))
    let newShed := p.shed &&& ~~~ s.unis.planShed
    let moves := fun (r : BitVec 6) => rangeValid (s.rangeEntry r) && field p.owners (2 * r.toNat) 2 != field s.unis.owner (2 * r.toNat) 2
    let s1 := s.onUnis (fun u => { u with
      owner := p.owners, planMask := m, planSweep := p.sweep, planShed := p.shed, planPending := false
      movedRanges := ranges.foldl (fun a r => putBit a r.toNat (moves r)) 0
      rehome := Vector.ofFn (fun v : Fin 4 => if m.getLsbD v.val then u.rehome[v] else 0) })
    let shed := fun (r : BitVec 6) => p.shed.getLsbD (rangeTrunk (s.rangeEntry r)).val
    let s2 := s1.onMetr (fun x => { x with judged := x.judged.map (fun j => { j with
      ranges := ranges.foldl (fun a r => if shed r then putBit a r.toNat false else a) j.ranges }) })
    let s3 := s2.each (lost.filter (fun r => !shed r)) (fun r s => s.rehome r (s.ownerOf r))
    let s4 := s3.each (trunks.filter (fun t => newShed.getLsbD t.val)) (fun t s => s.zoneTrip t)
    let s5 := ((s4.stretch p.sweep).cntUnis 2).evUnis .planApplied
    ((s5.when (s5.metr.sweepSel < p.sweep) (·.evUnis .stretch)).when (p.shed != 0) (·.evUnis .shed)).fixZones

/-- PLAN_APPLY: UNIS applies the plan of the live mask after a change (R121). -/
def execPlanApply (s : State) : Out :=
  if s.unis.planPending then .next (s.applyPlan s.unis.alive) else .next s

/-! ## Return (R126) -/

/-- A Voice that R126 lets return: not out twice, reset at L3, fully probed, requested by the host, its lines reclaimed. -/
def State.mayRejoin (s : State) (v : Vc) : Bool :=
  s.unis.tacet.getLsbD v.val && decide (s.unis.out[v].count.toNat < 2) && s.unis.outReset.getLsbD v.val &&
    s.unis.outProbed.getLsbD v.val && s.unis.returnReq.getLsbD v.val

/-- REJOIN for VOICE_n, n = REJOIN_V: of a Voice not live it is ignored (R279); refused, it is ignored and counted. While one is
pending, a second is held until the first has taken effect (R14). -/
def State.rejoinReq (s : State) : State :=
  let v := s.unis.rejoinV
  if s.unis.notLive.getLsbD v.val then s
  else if s.mayRejoin v then
    if s.unis.rejoin then s.onUnis (fun u => { u with rejoinHeld := some v })
    else s.onUnis (fun u => { u with rejoin := true, rejoinOf := v })
  else s.cntUnis 3

def execRejoin (s : State) : Out := .next (s.stewWrite blkUnis).rejoinReq

/-- The period a device returns to from the next boundary: in a formed pair B follows A's SWEEP to a shorter one, and A names
it (R340). -/
def State.returnSweep (s : State) (sel : BitVec 2) : State :=
  if s.formed && s.rst.opt.role == .b && sel < s.metr.sweep then s
  else
    let s1 := s.onMetr (fun x => { x with sweepNext := some sel })
    s1.when (s.formed && s.rst.opt.role == .a && sel != s.metr.sweep) (·.mirlSend (.sweep sel s.metr.nextAt))

/-- A pending REJOIN at a frame boundary: ALIVE, the plan of the new mask, and the configured period (R126). A held REJOIN follows at
the next boundary. -/
def State.readmit (s : State) : State :=
  let v := s.unis.rejoinOf
  if s.unis.rejoin && s.mayRejoin v && !s.chord.reclaiming.getLsbD v.val then
    let s1 := s.onUnis (fun u => { u with
      rejoin := u.rejoinHeld.isSome, rejoinOf := u.rejoinHeld.getD u.rejoinOf, rejoinHeld := none
      tacet := putBit u.tacet v.val false, alive := putBit u.alive v.val true })
    let s2 := s1.onChord (fun h => { h with wrapped := putBit h.wrapped v.val false })
    let s3 := (s2.applyPlan s2.unis.alive).journalFree 3
    s3.returnSweep s3.metr.sweepSel
  else s

/-! ## The Steward (R113 to R117) -/

/-- The Steward's L3 requested by the device's own logic, recorded as source 7 (log 25). -/
def State.stewardL3 (s : State) (src : Fin 10) : State := s.requestReset src .l3 0x04 false

/-- Exactly one core differs: masked; the third masking of a core stands until L0 or L1 (R115, R116). -/
def execStwVote (odd : Fin 3) (s : State) : Out :=
  if s.core[stw].inReset || s.unis.stwMasked != 0 then .next s
  else
    let n := s.unis.stwMaskNum[odd] + 1
    let s1 := s.onUnis (fun u => { u with
      stwMasked := oneHot 3 odd.val, stwMaskedAt := s.metr.lineTime
      stwMaskNum := upd u.stwMaskNum odd (· + 1), stwDegraded := u.stwDegraded || decide (3 ≤ n) })
    let s2 := ((s1.cntUnis 1).evUnis .stwVote).detect .stwVote stw.val 0
    .next (s2.when (decide (3 ≤ n)) (·.detect .stwDegraded stw.val 0))

/-- Drunor's safe point: the masked core is copied from a good core and all three restart together (R115). -/
def execStwResync (s : State) : Out :=
  if s.unis.stwMasked != 0 && !s.unis.stwDegraded && !s.core[stw].inReset then
    .next ((s.onUnis (fun u => { u with stwMasked := 0 })).evUnis .stwResync)
  else .next s

/-- VTA and VTB disagree, or a voter probe deviates (R113, R114). -/
def execStwVoter (s : State) : Out := .next (s.detect .stwVoter stw.val 0)

/-- The two cores of a dual pair mismatch (R116). -/
def execStwDual (s : State) : Out :=
  if s.unis.stwMasked != 0 then .next (s.detect .stwDual stw.val 0) else .next s

/-- Drunor is reloaded and re-authenticated: the Steward is back and its agent lives again (R117). -/
def execStewardReturn (s : State) : Out :=
  match s.unis.stwAway with
  | some _ =>
    if s.core[stw].inReset || s.chord.reclaiming.getLsbD stw.val then .next s
    else
      let s1 := s.onUnis (fun u => { u with stwAway := none })
      let s2 := s1.onChord (fun h => { h with wrapped := putBit h.wrapped stw.val false })
      .next (s2.onRst (fun r => { r with drunor := true })).storeInterrupted
  | none => .next s

end Sys2Proof.Machine
end

