-- ==== Sys2Proof/Machine/Metronome.lean ====
section
/-!
DEFINITION. The Metronome (10, 02): frame boundaries with the seal and the judging deadline, heartbeats, the frame-open fill,
warnings and pre-wakes, clock monitors, the watchdogs, and steps and slews of LINE_TIME.
-/
namespace Sys2Proof.Machine

/-! ## Instants -/

/-- The first multiple of `p` ticks at or after an instant. -/
def nextMultiple (p : Nat) (t : Time) : Time := BitVec.ofNat 64 ((t.toNat + p - 1) / p * p)

/-- The first multiple of `p` ticks after an instant. -/
def laterMultiple (p : Nat) (t : Time) : Time := BitVec.ofNat 64 ((t.toNat / p + 1) * p)

/-- The next heartbeat instant: a multiple of 24,000 ticks not yet used (R235). -/
def State.nextHeartbeat (s : State) : Time :=
  let t := nextMultiple Config.ticksPerMs s.metr.lineTime
  if t ≤ s.metr.hbAt then laterMultiple Config.ticksPerMs s.metr.hbAt else t

/-! ## The judging deadline (R23, R239, R267) -/

/-- RIDE_FRAMES as it acts: 3 acts as 2 (Table 09-9). -/
def Gov.rideLimit (g : Gov) : Nat := min g.rideFrames.toNat 2

/-- The unfinished ranges of a live Voice. -/
def State.liveUnfinished (s : State) : List (BitVec 6) :=
  s.unfinished.filter (fun r => s.unis.alive.getLsbD (s.ownerOf r).val)

/-- The deadline of the judged frame: FRAME_OVERRUN for each range without FDONE, or while riding one more unjudged frame, and
RIDE_EXPIRED once they exceed RIDE_FRAMES. REHOME bits stay until their ranges' FDONE (R123), but those of an L2 end with the
deadline (R263). -/
def State.judgeDeadline (s : State) : State :=
  let late := s.unfinished
  let s1 :=
    if s.gov.riding then
      if s.liveUnfinished.isEmpty then s
      else
        let s1 := s.onGov (fun g => { g with unjudged := satInc g.unjudged })
        s1.when (s.gov.unjudged.toNat == s.gov.rideLimit) (·.detect .rideExpired 0 0)
    else s.each late (fun r s => (s.detect .frameOverrun (rangeTrunk (s.rangeEntry r)).val (r.setWidth 32)).cntMetr 1)
  (s1.onUnis (fun u => { u with rehome := u.rehome.map (fun m => m &&& ~~~ u.rehomeL2), rehomeL2 := 0 })).onMetr (fun m =>
    { m with judged := none })

/-- A judging deadline that has come by an instant takes effect at its own time (R23, R239). -/
def State.passDeadline (s : State) (t : Time) : State :=
  match s.metr.judged with
  | some j => if j.deadline ≤ t then (s.elapseTo j.deadline).judgeDeadline else s
  | none => s

/-- Time passes up to an instant, the judging deadline on the way included. -/
def State.advance (s : State) (t : Time) : State := (s.passDeadline t).elapseTo t

/-! ## The seal (R22, R57, R112) -/

/-- The Score buffer that is not this one. -/
def otherBuf (b : Fin 2) : Fin 2 := if b = 0 then 1 else 0

/-- Slots of present concentrators that hold the MISSING word at the seal (R57). -/
def State.missingSlots (s : State) (t : TrkId) : Nat :=
  let m := s.presentMask t
  let got := (s.trk[t].written.filter (fun p => m.getLsbD (p.1.toNat / 256))).length
  256 * popCount m - got

/-- The ranges a sealed frame has to judge: valid, committed, and their trunk not shed (R121, R123). -/
def State.toJudge (s : State) : BitVec 64 :=
  if s.unis.committed then
    ranges.foldl (fun a r =>
      let e := s.rangeEntry r
      if rangeValid e && !s.unis.planShed.getLsbD (rangeTrunk e).val then putBit a r.toNat true else a) 0
  else 0

/-- A NAK set. -/
def DownSet.isNak : DownSet → Bool
  | .nak _ _ _ _ => true
  | _ => false

/-- The trunk's record of the open frame cleared for the next frame; no NAK of it is sent after its seal (R58). -/
def Trunk.newFrame (k : Trunk) : Trunk :=
  { k with written := [], linkq := k.linkq.filter (fun d => !d.isNak), conc := k.conc.map (fun c => { c with nextBseq := 0, lastSeen := false, naks := [], coalesced := false }) }

/-- The open frame sealed: MISSING counted, its buffer held for judging, FRAME_SEALED posted to every cluster not isolated. -/
def State.sealFrame (s : State) (at' : Time) : State :=
  let s1 := s.each (trunks.filter (fun t => s.trk[t].link != .tacet && s.populated t)) (fun t s =>
    (s.cntTrk t .missing (s.missingSlots t)).onTrk t (fun k => { k with missLast := BitVec.ofNat 17 (s.missingSlots t) }))
  let s2 := s1.onMetr (fun m => { m with
    judged := some ⟨m.frameNow, m.openBuf, at' + period m.sweep, 0, s.toJudge⟩, openBuf := otherBuf m.openBuf })
  let s3 := s2.each clusters (fun c s => s.onCore c (fun k => { k with frame := s.metr.frameNow }))
  (s3.each (clusters.filter (fun c => !s.isolated c)) (fun c s => s.postEvent c 8 1)).onCres (fun c => { c with booked := 0 })

/-! ## Checks at a boundary (R120, R210) -/

/-- The 64 words of the channel map in memory as UNIS reads them, with the reads' effects, and whether every one is clean. -/
def State.mapNow (s : State) : State × List Native × Bool :=
  (List.range 64).foldl (fun (acc : State × List Native × Bool) i =>
    match acc.1.chordReadAt (s.unis.chmapBase.toNat * 1024 + 16 * i) .other with
    | (t, some (x, p)) => (t, acc.2.1 ++ [x], acc.2.2 && !p)
    | (t, none) => (t, acc.2.1 ++ [0], false)) (s, [], true)

/-- The map in force replaced by what the memory holds (R19, R120). -/
def State.loadMap (s : State) (ws : List Native) : State :=
  s.onUnis (fun u => { u with chmap := Vector.ofFn (fun i => ws[i.val]?.getD 0), mapHeld := false })

/-- UNIS reloads the channel map at a frame boundary; a difference from CHMAP_CRC keeps the old geometry (R120). No check is made
before a map has been placed (log 28). -/
def State.checkMap (s : State) : State :=
  if s.unis.chmapBase = 0 then s
  else
    let (s1, ws, ok) := s.mapNow
    if ok && crc32cWords ws == s.unis.chmapCrc then s1.loadMap ws
    else (s1.onUnis (fun u => { u with mapHeld := true })).detect .chmapCrc 0 0

/-- The Governor recomputes the CRC of the live clamp table; a difference that no uncorrectable read explains raises CLAMP_LIVE
(R210). -/
def State.checkClampTable (s : State) : State :=
  let s1 := s.each (List.range 16) (fun k s => if s.gov.clampFailed.getLsbD k then s else (s.clampRead k).1)
  if s1.gov.clampFailed = 0 && crc32cWords s1.gov.clampData.toList != s1.gov.clampCrc then s1.detect .clampLive 0 0 else s1

/-- The comparators of a Voice that deviate in the probe at PROBE_IDX, UNA at bit 0 (R112). -/
def State.probeComp (s : State) (v : Vc) : BitVec 2 :=
  bit (probeDeviates s.unis.unb[v] s.unis.probeIdx) ++ bit (probeDeviates s.unis.una[v] s.unis.probeIdx)

/-- The probe at a seal of every live Voice, at bit PROBE_IDX: PROBE_CNT counts the passed ones, a Voice whose probe deviates goes out
before it judges, with UNISON_PROBE, and PROBE_IDX advances (R112). -/
def State.probeSeal (s : State) : State :=
  let live := voices.filter (fun v => s.unis.alive.getLsbD v.val)
  let s1 := (s.cntUnis 0 (live.filter (fun v => s.probeComp v == 0)).length).onUnis (fun u => { u with probeIdx := u.probeIdx + 1 })
  s1.each (live.filter (fun v => s.probeComp v != 0)) (fun v t =>
    ((t.voiceOut v .probe (s.probeComp v) 0).evUnis .probeFail).detect .unisonProbe v.val 0)

/-- A survivor's solo epoch (R338). -/
def State.soloEpoch (s : State) : State :=
  if s.mirl.soloPending then
    let s1 := s.onMirl (fun m => { m with soloPending := false })
    if s.gov.state = .permitted then ((s1.setEpoch s1.ownNext).onMirl (fun m => { m with soloEpoch := true })).journalFree 2
    else s1
  else s

/-! ## The frame boundary (R22, R237) -/

/-- A schedule that a rebooted A took over from B's announcement (R328): its next boundary, and how many passed before it. -/
def State.resumed (s : State) : Option (Time × Nat) :=
  if s.formed && s.metr.nextAt != 0 then
    let p := (period (s.metr.sweepNext.getD s.metr.sweep)).toNat
    let k := (s.metr.lineTime.toNat + p - 1 - s.metr.nextAt.toNat) / p
    some (s.metr.nextAt + BitVec.ofNat 64 (k * p), k)
  else none

/-- An enabled trunk that has not yet left TRAIN, or waits for its grant before it (R237, R241). -/
def State.training (s : State) (t : TrkId) : Bool :=
  let k := s.trk[t]
  k.enable && (k.link == .train || (k.link == .down && !k.failed && s.powerOf (rqTrk t) != .run))

/-- The next boundary: the first falls on a heartbeat instant once no enabled trunk trains; B of a formed pair follows the
boundary its peer announced (R327), and the moved one after a stretch (R31, R340). None while no frames run. -/
def State.boundaryAt (s : State) : Option Time :=
  match s.metr.openAt with
  | some _ =>
    match s.formed && s.rst.opt.role == .b && !s.metr.moved, s.mirl.peerBoundary with
    | true, some (t, _) => some t
    | _, _ => some s.metr.nextAt
  | none =>
    if s.cres.season = .winter || s.rst.coda || trunks.any s.training then none
    else match s.resumed with
    | some (t, _) => some t
    | none => some (nextMultiple Config.ticksPerMs s.metr.lineTime)

/-- FRAME of the frame that a boundary opens (R237, R327). -/
def State.frameNext (s : State) : BitVec 16 :=
  match s.formed && s.rst.opt.role == .b, s.mirl.peerBoundary with
  | true, some (_, f) => f
  | _, _ =>
    match s.metr.openAt, s.resumed with
    | none, some (_, k) => s.metr.frameNow + 1 + BitVec.ofNat 16 k
    | _, _ => s.metr.frameNow + 1

/-- The period of the frame that a boundary opens: a peer's SWEEP, a plan or a commit that waits for this boundary. The longer
one runs; B returns to a shorter one that A names and its own plan allows (R340). -/
def State.sweepFrom (s : State) (at' : Time) : BitVec 2 :=
  let own := s.metr.sweepNext.getD s.metr.sweep
  match s.mirl.sweepAt with
  | some (sel, t) =>
    if t ≤ at' && (own < sel || (s.formed && s.rst.opt.role == .b && s.unis.planSweep ≤ sel)) then sel else own
  | none => own

/-- The next frame opens. -/
def State.openFrame (s : State) (at' : Time) : State :=
  let f := s.frameNext
  let sel := s.sweepFrom at'
  let s1 := s.onMetr (fun m => { m with
    frameNow := f, sweep := sel, sweepNext := none, openAt := some at', nextAt := at' + period sel, moved := false })
  let s2 := s1.onMirl (fun m => { m with sweepAt := m.sweepAt.filter (fun x => at' < x.2) })
  let s3 := s2.onGov (fun g => { g with pushed := Vector.replicate 64 0 })
  s3.each trunks (fun t s => s.onTrk t (fun k =>
    let k1 := k.newFrame
    if s.sends t then { k1 with out := [.fm f sel] } else k1))

/-- One frame boundary. A frame whose deadline lies behind the boundary, after a change to a shorter period, ends with it, for its
buffer is reopened (R23, log 27). -/
def State.boundary (s : State) (at' : Time) : State :=
  let s0 := s.advance at'
  let s1 := s0.when s0.metr.judged.isSome State.judgeDeadline
  let s2 := s1.when s1.metr.openAt.isSome (fun s => (s.sealFrame at').probeSeal)
  let s3 := s2.checkMap.checkClampTable
  let s4 := s3.each trunks (fun t s => s.onTrk t (fun k => { k with route := Vector.replicate 32 none }))
  (s4.readmit.soloEpoch).openFrame at'

def execFrameBoundary (s : State) : Out :=
  match s.boundaryAt with
  | some t => .next (s.boundary t)
  | none => .next s

/-! ## The retry point (R58) -/

/-- RETRY_RES as an interval: in 10 us units, at most half the period (Table 03-11). -/
def State.retryLead (s : State) (t : TrkId) : Nat :=
  min (s.trk[t].retryRes.toNat * 10 * Config.ticksPerUs) (periodMs s.metr.sweep * Config.ticksPerMs / 2)

/-- The retry point, seal less RETRY_RES: a NAK with REASON 3 for every present concentrator without a LAST burst (R58). -/
def execRetryPoint (t : TrkId) (s : State) : Out :=
  match s.metr.openAt, s.boundaryAt with
  | some _, some end_ =>
    let s0 := s.advance (end_ - BitVec.ofNat 64 (s.retryLead t))
    if s0.trk[t].link = .up then
      .next (s0.each (List.range 32) (fun i s =>
        let c : BitVec 5 := BitVec.ofNat 5 i
        let cs := getN s.trk[t].conc i .reset
        s.when (s.present t c && !cs.lastSeen) (·.nak t c cs.nextBseq 3)))
    else .next s0
  | _, _ => .next s

/-! ## The frame-open fill (R57) -/

/-- The Score buffer with the MISSING word in every slot that no record of the open frame has filled. -/
def State.fillScore (s : State) (f : Fin 2) : State :=
  let keep := trunks.foldl (fun xs t => xs ++ s.trk[t].written.map (fun p => t.val * 8192 + p.1.toNat)) []
  let ram := keep.foldl (fun (r : Ram) i => r.put missingCell i (s.mem.score[f].get (s.dflt (.score f)) i)) Ram.empty
  let inside := fun (i : Nat) => !keep.contains i
  let save := match s.osti.save with
    | some buf =>
      match regionKind s.osti.region.toNat with
      | .words (.score g) first => if g = f then
          some (Vector.ofFn (fun (i : Fin 64) => if inside (first + i.val) then missingCell else buf[i])) else some buf
      | _ => some buf
    | none => none
  { s with
    mem := { s.mem with score := upd s.mem.score f (fun _ => ram), scoreFilled := upd s.mem.scoreFilled f (fun _ => true) }
    osti := { s.osti with save := save } }

/-- The fill of the open buffer completes; an injection armed at a slot it writes strikes there (R104). -/
def execFrameOpenFill (s : State) : Out :=
  if s.metr.openAt.isNone then .next s
  else
    let f := s.metr.openBuf
    let idx := s.memc.injAddr.toNat * 16 - MemName.base (.score f)
    let hit := s.memc.injGo && decide (MemName.base (.score f) ≤ s.memc.injAddr.toNat * 16) && decide (idx < 0x00200000) &&
      !(trunks.any (fun t => s.trk[t].written.any (fun p => t.val * 8192 + p.1.toNat == idx / 16)))
    let s1 := s.fillScore f
    .next (s1.when hit (fun s => s.storeWord ⟨.score f, idx / 16⟩ 0 true))

/-! ## Heartbeats (R44, R46, R216, R236) -/

/-- HBF of Table 03-1. -/
def State.hbFlags (s : State) (t : TrkId) : Byte :=
  let role : BitVec 2 := match s.rst.opt.role with | .solo => 0 | .a => 1 | .b => 2
  place 8 0 (bit (s.gov.state == .fermata || s.trk[t].veto)) ||| place 8 1 role ||| place 8 3 (bit (s.gov.zone.getLsbD t.val))

/-- EPOCH of a heartbeat: 0 in TRAIN (Table 03-2). -/
def State.hbEpoch (s : State) (t : TrkId) : Byte := if s.trk[t].link = .train then 0 else s.gov.epochHb

/-- LT_ADJ's amount for one heartbeat interval: at most 24 ticks either way (R236). -/
def slewOf (adj : Word) : Int := if 24 < adj.toInt then 24 else if adj.toInt < -24 then -24 else adj.toInt

/-- The interval that begins is shortened by a positive amount and lengthened by a negative one (R236; log 29). -/
def State.slew (s : State) : State :=
  let d := slewOf s.metr.ltAdj
  s.onMetr (fun m => { m with lineTime := m.lineTime + BitVec.ofInt 64 d, ltAdj := m.ltAdj - BitVec.ofInt 32 d })

/-- The STATE packet of a heartbeat instant (13, Table 13-2). Without frames, the boundary it announces is a free value. -/
def State.statePacket (s : State) : Packet :=
  let g : BitVec 2 := match s.gov.state with | .disarmed => 0 | .armed => 1 | .permitted => 2 | .fermata => 3
  let w0 : Native := place 128 0 g ||| place 128 8 s.gov.epoch ||| place 128 16 s.aon.lastEpoch |||
    place 128 24 s.unis.alive ||| place 128 28 s.metr.sweep ||| place 128 32 (s.mirl.peerArg.setWidth 16) |||
    place 128 64 s.mirl.peerArrival
  let w1 : Native := match s.metr.openAt, s.resumed with
    | some _, _ => place 128 0 s.metr.nextAt ||| place 128 64 s.frameNext
    | none, some (t, _) => place 128 0 t ||| place 128 64 s.frameNext
    | none, none => (Config.freeNative s.free).setWidth 80 |>.setWidth 128
  .state s.metr.lineTime w0 w1

/-- The rotation of the voter probe (R113). -/
def Metr.turnProbe (m : Metr) : Metr :=
  { m with stwProbeCore := if m.stwProbeCore = 2 then 0 else m.stwProbeCore + 1, stwProbeBit := m.stwProbeBit + 1 }

/-- One heartbeat instant. -/
def State.heartbeat (s : State) (at' : Time) : State :=
  let s1 := (s.advance at').onMetr (fun m => { m.turnProbe with hbAt := at' })
  let s2 := s1.onGov (fun g => { g with
    tokens := min g.rate.toNat Config.rateCeiling, epochHb := if s.mirl.observer then 0 else g.epoch })
  let s3 := s2.each (trunks.filter s2.sends) (fun t s => s.onTrk t (fun k => { k with
    out := [.hb s.metr.frameNow (BitVec.ofNat 48 (s.metr.lineTime.toNat / 24)) (s.hbEpoch t) (s.hbFlags t)] }))
  let s4 := s3.when (s.mirl.enable && s.rst.opt.role != .solo) (fun s =>
    (s.onMirl (fun m => { m with txq := m.txq ++ [s.statePacket] })).fresh)
  s4.slew

def execHeartbeat (s : State) : Out := .next (s.heartbeat s.nextHeartbeat)

/-! ## Pre-wake and warning (R238, R239) -/

/-- 40 us before the seal: the wake of every live Voice in RETAIN is booked, to be granted at its own instant (R238). -/
def execVoicePreWake (s : State) : Out :=
  match s.metr.openAt, s.boundaryAt with
  | some _, some end_ =>
    let s1 := s.advance (end_ - us 40)
    let sleeping := voices.filter (fun v => s1.unis.alive.getLsbD v.val && s1.powerOf (rqVoice v) == .retain)
    .next (s1.each sleeping (fun v s =>
      (s.onCres (fun c => { c with booked := putBit c.booked v.val true })).askGrant (rqVoice v)))
  | _, _ => .next s

/-- WARN_LEAD before the deadline: FRAME_WARN to each Voice with an unfinished range. -/
def execFrameWarn (s : State) : Out :=
  match s.metr.judged with
  | some j =>
    let s1 := s.advance (j.deadline - us s.metr.warnLead.toNat)
    let owners := voices.filter (fun v => s1.unis.alive.getLsbD v.val && s1.unfinished.any (fun r => s1.ownerOf r == v))
    .next (s1.each owners (fun v s => (s.postEvent (vcl v) 12 5).cntMetr 0))
  | none => .next s

/-! ## Clock monitors (R234) -/

/-- CLKMODE 0b10: RC only (R273). -/
def State.rcOnly (s : State) : Bool := s.rst.opt.clkmode == 2

/-- CLOCK is reported, and LINE_TIME counts RC ticks until L0. -/
def State.clockFault (s : State) : State :=
  (s.onMetr (fun m => { m with rcFallback := true })).detect .clock 0 0

/-- A 10 us window ends: beyond ±2 % of the RC's 240 ticks it reports CLOCK. In RC-only mode there is no reference. -/
def execClockMonitorWindow (count : Nat) (s : State) : Out :=
  if s.rcOnly then .next s
  else
    let off := if 240 ≤ count then count - 240 else 240 - count
    if 480 < off * 100 then
      .next (((s.onAon (fun a => { a with refBad := true })).causeBack.onMetr (fun m => { m with refOk := false })).clockFault)
    else .next ((s.onAon (fun a => { a with refBad := false })).onMetr (fun m => { m with refOk := true }))

/-- Bit of a PLL in the monitors. -/
def pllBit : Pll → Nat
  | .line => 0 | .fab => 1 | .stw => 2 | .mirl => 3 | .voice v => 4 + v.val

/-- The requesters whose blocks a PLL clocks (Table 10-1). -/
def pllClocks : Pll → List (Fin 29)
  | .line => trunks.map rqTrk
  | .fab => trunks.map rqTrk ++ slices.map rqSlice ++ [rqXspi]
  | .stw => [rqStw]
  | .mirl => [rqMirl]
  | .voice v => [rqVoice v]

/-- A PLL runs only while some block it clocks holds a grant, or a reset has started it (R233). -/
def State.pllRuns (s : State) (p : Pll) : Bool := s.rst.seq.isSome || (pllClocks p).any (fun r => s.cres.grants.contains r)

/-- A lock monitor reports; the monitor of a stopped PLL does not (R233). -/
def execPllLockLoss (p : Pll) (s : State) : Out :=
  if s.pllRuns p then .next ((s.onAon (fun a => { a with pllBad := a.pllBad ||| oneHot 8 (pllBit p) })).causeBack.clockFault)
  else .next s

/-- The PLL is locked again: its report ends; RC_FALLBACK stays until L0. -/
def execPllRelock (p : Pll) (s : State) : Out :=
  .next (s.onAon (fun a => { a with pllBad := putBit a.pllBad (pllBit p) false }))

/-! ## Watchdogs (R153, R240) -/

/-- The Steward watchdog counts: in RUN or IDLE and not in reset. -/
def State.stwCounts (s : State) : Bool :=
  !s.core[stw].inReset && (s.powerOf rqStw == .run || s.powerOf rqStw == .idle)

/-- The Voice watchdog counts: awake and not in WAIT. -/
def State.voiceCounts (s : State) (v : Vc) : Bool :=
  let k := s.core[vcl v]
  !k.inReset && !k.waiting && (s.powerOf (rqVoice v) == .run || s.powerOf (rqVoice v) == .idle)

/-- A change of a core's reset, WAIT or power state, with the watchdogs paused or resumed by it: while one pauses, its field
holds the time it has counted. -/
def State.withWdogs (s : State) (f : State → State) : State :=
  let t := f s
  let t1 := t.when (s.stwCounts != t.stwCounts) (·.onMetr (fun m => { m with kickAt := m.lineTime - m.kickAt }))
  t1.each voices (fun v x => x.when (s.voiceCounts v != t.voiceCounts v)
    (·.onCore (vcl v) (fun k => { k with wdogAt := x.metr.lineTime - k.wdogAt })))

/-- KICK reloads the Steward watchdog. -/
def State.kick (s : State) : State :=
  s.onMetr (fun m => { m with kickAt := if s.stwCounts then m.lineTime else 0 })

def execKick (s : State) : Out := .next (s.stewWrite blkMetr).kick

/-- WDOG_KICK reloads the watchdog of the cluster; the Steward's own is the Metronome's (R153). -/
def State.wdogKick (s : State) (c : Cl) : State :=
  match voiceOf c with
  | some v => s.onCore c (fun k => { k with wdogAt := if s.voiceCounts v then s.metr.lineTime else 0 })
  | none => s

def execWdogKick (c : Cl) (s : State) : Out := .next (s.wdogKick c)

/-- STW_WDOG MS as it acts: below 2 acts as 2 (Table 10-7). -/
def Metr.wdogPeriod (m : Metr) : Time := ms (max m.wdogMs.toNat 2)

/-- The Steward watchdog expires. -/
def execStwWdog (s : State) : Out :=
  if s.stwCounts then
    let s1 := s.advance (s.metr.kickAt + s.metr.wdogPeriod)
    .next (s1.detect .stwWdog stw.val 0)
  else .next s

/-- A Voice watchdog expires WDOG_LIMIT us after its last reload. -/
def execVoiceWdog (v : Vc) (s : State) : Out :=
  if s.voiceCounts v && !s.unis.tacet.getLsbD v.val then
    let k := s.core[vcl v]
    let s1 := s.advance (k.wdogAt + us k.wdogLimit.toNat)
    .next (s1.detect .voiceWdog v.val 0)
  else .next s

/-! ## Timeouts of Unison and the Governor (R115, R117, R206) -/

/-- No safe point within 2 ms of masking: a Steward L3 (R115). -/
def execStwResyncTimeout (s : State) : Out :=
  if s.unis.stwMasked != 0 && !s.unis.stwDegraded then
    .next ((s.advance (s.unis.stwMaskedAt + ms 2)).stewardL3 7)
  else .next s

/-- 250 ms after a Steward L3 without its return (R117). -/
def execStwLost (s : State) : Out :=
  match s.unis.stwAway with
  | some t => .next (((s.advance (t + ms 250)).onUnis (fun u => { u with stwAway := none })).detect .stwLost stw.val 0)
  | none => .next s

/-- 500 ms after an accepted stage it is no longer pending (R206, Table 09-9 STAGED). -/
def execPermitStageExpiry (s : State) : Out :=
  match s.gov.stage with
  | some (t, _) => .next ((s.advance (t + ms 500)).onGov (fun g => { g with stage := none }))
  | none => .next s

/-! ## Steps and slews (R236) -/

/-- LINE_TIME moved by a step. Counts of elapsed time go on as they stand; a running frame schedule keeps its boundaries on
heartbeat instants (log 30). -/
def State.stepTime (s : State) (dest : Time) : State :=
  let d := dest - s.metr.lineTime
  let move := fun (t : Time) => t + d
  let s1 := s.onMetr (fun m => { m with
    lineTime := dest, kickAt := if s.stwCounts then move m.kickAt else m.kickAt
    hbAt := BitVec.ofNat 64 (dest.toNat / Config.ticksPerMs * Config.ticksPerMs)
    openAt := m.openAt.map move, nextAt := nextMultiple Config.ticksPerMs (move m.nextAt)
    judged := m.judged.map (fun j => { j with deadline := nextMultiple Config.ticksPerMs (move j.deadline) }) })
  let s2 := s1.each voices (fun v x => x.when (s.voiceCounts v)
    (·.onCore (vcl v) (fun k => { k with wdogAt := move k.wdogAt })))
  let s3 := s2.onAon (fun a => { a with
    estopOkSince := a.estopOkSince.map move, armOffSince := a.armOffSince.map move })
  let s4 := s3.onCres (fun c => { c with
    waiting := c.waiting.map (fun w => { w with since := move w.since }), idleAt := c.idleAt.map move, drainAt := move c.drainAt })
  let s5 := s4.onUnis (fun u => { u with stwMaskedAt := move u.stwMaskedAt, stwAway := u.stwAway.map move })
  let s6 := s5.onHub (fun h => { h with times := h.times.map (fun p => (p.1, move p.2)) })
  let s7 := s6.onGov (fun g => { g with stage := g.stage.map (fun p => (move p.1, p.2)) })
  (s7.onOsti (fun o => { o with passStart := move o.passStart, startAt := move o.startAt })).onMirl (fun m => { m with
    noticeAt := m.noticeAt.map move, peerArrival := move m.peerArrival })

/-- A step is accepted only in DISARMED with every trunk engine DOWN (R236). -/
def State.mayStep (s : State) : Bool := s.gov.state == .disarmed && trunks.all (fun t => s.trk[t].link == .down)

/-- LT_STEP loads LT_SET, or is refused. -/
def State.ltStep (s : State) : State :=
  if s.mayStep then s.stepTime s.metr.ltSet else s.onMetr (fun m => { m with stepRefused := true })

def execLtStep (s : State) : Out := .next (s.stewWrite blkMetr).ltStep

/-- A hardware update lost to a software write: HWLOST, and the offset of its register (R13, Table 01-2). -/
def State.setHwlost (s : State) (b : BlkId) (off : Nat) : State :=
  s.onHdr b (fun h => { h with hwlost := true, hwlostSrc := BitVec.ofNat 16 off })

/-- LT_ADJ written; the slewing decrement of the same cycle is lost (10, Edge cases). -/
def State.ltAdjWrite (s : State) (v : Word) (slewing : Bool) : State :=
  (s.onMetr (fun m => { m with ltAdj := v })).when slewing (·.setHwlost blkMetr 0x48)

def execLtAdjWrite (v : Word) (slewing : Bool) (s : State) : Out := .next ((s.stewWrite blkMetr).ltAdjWrite v slewing)

end Sys2Proof.Machine
end

