-- ==== Sys2Proof/Machine/Clock.lean ====
section
/-!
DEFINITION. What passes while no command waits: one tick of LINE_TIME (R235; log 1).
-/
namespace Sys2Proof.Machine

/-- One reference tick with no command: LINE_TIME counts (R235), and a judging deadline it reaches takes effect (R23). -/
def idleTick (s : State) : State :=
  let s1 := s.elapse 1
  s1.passDeadline s1.metr.lineTime

end Sys2Proof.Machine
end

