-- ==== Sys2Proof/Machine/Crescendo.lean ====
section
/-!
DEFINITION. Crescendo (10): arbitration, classes and revocation (R247 to R250), the block power states (R241 to R243), and the
season changes that are events of their own (Table 10-3, R244).
-/
namespace Sys2Proof.Machine

/-! ## Requesters (Table 10-4) -/

/-- Grant of a requester in PU. -/
def State.grantPu (s : State) (r : Fin 29) : Nat :=
  if r.val < 16 then 5 else if r.val = 16 then 20 else if r.val < 21 then 80 else if r.val = 21 then 60
  else if r.val < 26 then 18 else if r.val = 26 then 8 else if r.val = 27 then 4
  else if s.cres.lbist then 160 else 60

/-- Safety reserve: requesters 0 to 16. -/
def reserved (r : Fin 29) : Bool := decide (r.val ≤ 16)

/-- The Voice of a requester. -/
def voiceOfRq (r : Fin 29) : Option Vc := if h : 17 ≤ r.val ∧ r.val < 21 then some ⟨r.val - 17, by omega⟩ else none

/-- A Voice is judging: booked, woken by REHOME, or owning a range of the judged frame without FDONE. -/
def State.judging (s : State) (v : Vc) : Bool :=
  s.cres.booked.getLsbD v.val || s.unis.rehome[v] != 0 || s.unfinished.any (fun r => s.ownerOf r == v)

/-- The class of a requester now (R249). -/
def State.classOf (s : State) (r : Fin 29) : Nat :=
  if reserved r then 1
  else match voiceOfRq r with
  | some v => if s.judging v then 2 else 3
  | none => if r.val < 27 then 3 else 4

/-! ## Arbitration (R247, R248, R250) -/

/-- CRES_BUDGET as it acts: at least 560 PU (R250). -/
def Cres.limit (c : Cres) : Nat := max c.budget.toNat 560

/-- PU granted, reserve excluded (CRES_USED). -/
def State.usedPu (s : State) : Nat :=
  ((s.cres.grants.filter (fun r => !reserved r)).map s.grantPu).foldl (· + ·) 0

/-- The unreserved budget: 100 PU are kept for requesters 0 to 16 (R247). -/
def State.openBudget (s : State) : Nat := s.cres.limit - 100

/-- Releases applied. -/
def State.applyReleases (s : State) : State :=
  s.onCres (fun c => { c with
    grants := c.grants.filter (fun r => !c.released.contains r)
    noticed := c.noticed.filter (fun r => !c.released.contains r), released := [] })

/-- The instant from which a booked Voice is granted: VOICE_0 to VOICE_3 at seal - 30, - 29, - 28 and - 27 us (R238). -/
def State.slotOf (s : State) (v : Vc) : Option Time := s.boundaryAt.map (· - us (30 - v.val))

/-- When a request began to wait: a booked one at its own instant (log 94). -/
def State.waitsFrom (s : State) (w : Wait) : Time :=
  match voiceOfRq w.id with
  | some v => if s.cres.booked.getLsbD v.val then
      (match s.slotOf v with | some t => if w.since < t ∧ t ≤ s.metr.lineTime then t else w.since | none => w.since)
    else w.since
  | none => w.since

/-- A waiting request granted; CRES_MAX_WAIT keeps the longest class 2 wait. -/
def State.give (s : State) (w : Wait) : State :=
  let ns := (s.metr.lineTime.toNat - (s.waitsFrom w).toNat) * 1000 / Config.ticksPerUs
  let longest := if s.classOf w.id = 2 then max s.cres.maxWait.toNat (min ns 65535) else s.cres.maxWait.toNat
  s.onCres (fun c => { c with
    grants := c.grants ++ [w.id], waiting := c.waiting.filter (fun x => x.id != w.id)
    maxWait := BitVec.ofNat 16 longest })

/-- One request goes before another: class order, the older first, the lower ID among equals. -/
def State.before (s : State) (a b : Wait) : Bool :=
  let ca := s.classOf a.id
  let cb := s.classOf b.id
  if ca != cb then decide (ca < cb)
  else if a.since != b.since then decide (a.since < b.since)
  else decide (a.id < b.id)

/-- A request put in its place. -/
def State.rank (s : State) (w : Wait) : List Wait → List Wait
  | [] => [w]
  | x :: xs => if s.before w x then w :: x :: xs else x :: s.rank w xs

/-- A request that the pre-wake has booked for a later arbitration, with nothing else to wake the Voice for (R238, R242). -/
def State.bookedLater (s : State) (w : Wait) : Bool :=
  match voiceOfRq w.id with
  | some v => s.cres.booked.getLsbD v.val && s.powerOf w.id == .retain && s.core[vcl v].cueReady == 0 &&
      s.core[vcl v].acceptable.isNone && (match s.slotOf v with | some t => decide (s.metr.lineTime < t) | none => false)
  | none => false

/-- Booked requests whose instant has not come. They rank in class 2 from the booking, and background requests wait for them (10, Edge
cases). -/
def State.bookedWaits (s : State) : List Wait := s.cres.waiting.filter s.bookedLater

/-- Waiting requests of classes 2 to 4 in the order they are considered. -/
def State.ranked (s : State) : List Wait :=
  (s.cres.waiting.filter (fun w => !reserved w.id && !s.bookedLater w && (decide (s.classOf w.id < 4) || s.bookedWaits.isEmpty))).foldl
    (fun xs w => s.rank w xs) []

/-- The step limit of 100 PU of new grants per arbitration (R247). The LBIST grant of Table 10-4 is above it: such a request fits as the
first new grant of its arbitration (DEDUCED, log 94). -/
def fitsStep (step pu : Nat) : Bool := step == 0 || decide (step + pu ≤ 100)

/-- Each request is granted while it fits the unreserved budget and the step limit; the first that does not fit is answered. -/
def State.grantWhile (s : State) (step : Nat) : List Wait → State × Option Wait
  | [] => (s, none)
  | w :: ws =>
    let pu := s.grantPu w.id
    if s.usedPu + pu ≤ s.openBudget ∧ fitsStep step pu then (s.give w).grantWhile (step + pu) ws else (s, some w)

/-- Class 4 holders without notice, the youngest first. -/
def State.revocable (s : State) : List (Fin 29) :=
  (s.cres.grants.filter (fun r => s.classOf r == 4 && !s.cres.noticed.contains r)).reverse

/-- Notice to a holder (R248). -/
def State.notice (s : State) (r : Fin 29) : State :=
  ((s.onCres (fun c => { c with noticed := c.noticed ++ [r] })).cntCres 0).evCres .revoked

/-- Notices to as many of the holders as free `need` PU. -/
def State.noticeFor (s : State) (need : Nat) : List (Fin 29) → State
  | [] => s
  | r :: rs => if need = 0 then s else (s.notice r).noticeFor (need - s.grantPu r) rs

/-- PU that the holders under notice will free. -/
def State.freeing (s : State) : Nat := (s.cres.noticed.map s.grantPu).foldl (· + ·) 0

/-- Notices for the first class 2 or 3 request that does not fit the budget, for bookings that will not, or for a budget lowered below
the use (R248; 10, Edge cases). -/
def State.revoke (s : State) (stuck : Option Wait) : State :=
  let want := match stuck with
    | some w => if s.classOf w.id < 4 ∧ s.openBudget < s.usedPu + s.grantPu w.id then s.grantPu w.id else 0
    | none => 0
  let booked := (s.bookedWaits.map (fun w => s.grantPu w.id)).foldl (· + ·) 0
  let need := s.usedPu + want + booked - s.openBudget - s.freeing
  s.noticeFor need s.revocable

/-- Requests that have waited past one arbitration are counted once; a booked one waits from its own instant. -/
def State.countWaits (s : State) : State :=
  let news := (s.cres.waiting.filter (fun w => !w.counted && !s.bookedLater w)).length
  (s.each (List.range news) (fun _ s => s.cntCres 1)).onCres (fun c => { c with
    waiting := c.waiting.map (fun w => if s.bookedLater w then w else { w with counted := true }) })

/-- BIST under notice releases within it: its slice stops and runs again under the next grant (R248; log 84). -/
def State.bistYield (s : State) : State :=
  s.when (s.cres.noticed.contains rqBist && s.holds rqBist) (fun s => (s.dropGrant rqBist).askGrant rqBist)

/-- One arbitration. -/
def State.arbitrate (s : State) : State :=
  let s1 := s.bistYield.applyReleases
  let s2 := s1.each (s1.cres.waiting.filter (fun w => reserved w.id)) (fun w s => s.give w)
  let (s3, stuck) := s2.grantWhile 0 s2.ranked
  (s3.revoke stuck).countWaits

def execCrescendoArbitration (s : State) : Out :=
  .next (s.advance (laterMultiple Config.ticksPerUs s.metr.lineTime)).arbitrate

/-! ## Power states (R241 to R243) -/

/-- A Voice in IDLE: powered with its core in WAIT (R160). -/
def State.idling (s : State) (v : Vc) : Bool :=
  s.core[vcl v].waiting && (s.powerOf (rqVoice v) == .idle || s.powerOf (rqVoice v) == .run)

/-- A live Voice that has been in IDLE for SLEEP_DELAY us enters RETAIN, with no slot ready and no range to finish (R242). -/
def execVoiceSleep (v : Vc) (s : State) : Out :=
  let s1 := s.advance (s.cres.idleAt[v] + us s.cres.sleepDelay.toNat)
  if s.unis.alive.getLsbD v.val && s.idling v && s.core[vcl v].cueReady == 0 && s.core[vcl v].acceptable.isNone
      && !(s.unfinished.any (fun r => s.ownerOf r == v)) then
    .next (s1.withWdogs (fun s => (s.setPower (rqVoice v) .retain).dropGrant (rqVoice v)))
  else .next s

/-- The cluster of a requester. -/
def clOfRq (r : Fin 29) : Option Cl := if h : 17 ≤ r.val ∧ r.val < 22 then some ⟨r.val - 17, by omega⟩ else none

/-- The slice of a requester. -/
def sliceOfRq (r : Fin 29) : Option SliceId := if h : 22 ≤ r.val ∧ r.val < 26 then some ⟨r.val - 22, by omega⟩ else none

/-- The zero fill and invalidation of a block that wakes from OFF (R88). -/
def State.initBlock (s : State) (r : Fin 29) : State :=
  match clOfRq r with
  | some c => (s.zeroTcm c).onChord (fun h => { h with l1d := upd h.l1d c (fun _ => []) })
  | none =>
    match sliceOfRq r with
    | some i => (s.zeroSlice i).onSlice i (fun h => { h with tm := [], vd := [] })
    | none => s

/-- The trunk engine of a requester. -/
def trkOfRq (r : Fin 29) : Option TrkId := if h : r.val < 16 then some ⟨r.val, h⟩ else none

/-- A trunk engine that has woken begins the bring-up it waits for (Table 03-2, R241). -/
def State.trainWoken (s : State) (r : Fin 29) : State :=
  match trkOfRq r with
  | some t => s.when (s.trk[t].enable && s.trk[t].link == .down && !s.trk[t].failed) (·.train t)
  | none => s

/-- A granted block completes its wake: PLL lock, and the zero fill from OFF, and it runs. -/
def State.wake (s : State) (r : Fin 29) : State :=
  let s1 := s.when (s.powerOf r == .off) (·.initBlock r)
  let s2 := s1.withWdogs (·.setPower r .run)
  match voiceOfRq r with
  | some v => s2.onCres (fun c => { c with idleAt := upd c.idleAt v (fun _ => s.metr.lineTime) })
  | none => s2.trainWoken r

def execBlockWake (r : Fin 29) (s : State) : Out :=
  if s.holds r && (s.powerOf r == .off || s.powerOf r == .retain) then .next (s.wake r) else .next s

/-- A block enters OFF: its grant goes back and its contents are lost. A cluster's registers and cached lines are part of them. -/
def State.powerOff (s : State) (r : Fin 29) : State :=
  let s1 := s.withWdogs (fun s => (s.setPower r .off).dropGrant r)
  match clOfRq r with
  | some c => (s1.onCore c (fun k => { Core.reset with
      inReset := k.inReset, wdogLimit := k.wdogLimit, wdogStaged := k.wdogStaged, wdogAt := k.wdogAt })).onChord (fun h =>
        { h with l1d := upd h.l1d c (fun _ => []) })
  | none => s1

def execBlockOff (r : Fin 29) (s : State) : Out := .next (s.powerOff r)

/-! ## Seasons (Table 10-3, R244) -/

/-- Every enabled trunk is UP or has failed bring-up: SUMMER. -/
def execSummerEntry (s : State) : Out :=
  if s.seasonFree && s.cres.season == .spring && trunks.all (fun t =>
      let k := s.trk[t]
      !k.enable || k.link == .up || k.failed || k.link == .tacet) then .next (s.enterSeason .summer)
  else .next s

/-- Data on its way to the homes, or kept in their reserved buffers, reaches the arrays. -/
def State.landData (s : State) : State :=
  let s1 := s.each s.chord.net (fun m s => match m with
    | .carryDirty _ l d p _ => s.writeLine l d p 15
    | .carryPut a l d p k => s.when (cacheOf a).isNone (·.writeLine l d p k)
    | _ => s)
  s1.each slices (fun i s => (s.each s.chord.slice[i].early (fun e s => s.writeLine e.2.1 e.2.2.1 e.2.2.2.1 e.2.2.2.2)).each
    s.chord.slice[i].txns (fun t s => match t.put with
      | some (d, p, k) => s.writeLine t.line d p k
      | none => s))

/-- A word of an L1D line that no correction recovers. -/
def L1Line.broken (x : L1Line) : Bool :=
  x.words.toList.any (fun c => match decodeSyndrome c.syn with | .uncorrectable | .address => true | _ => false)

/-- A dirty line written straight into its home's array: clean where its words decode; one with an uncorrectable word is written
poisoned, and before an L2 reported as COH_LOST (R262; log 83). -/
def State.putHome (s : State) (c : Cl) (x : L1Line) (report : Bool) : State :=
  if report && x.broken then
    ((s.noteL1Line c x).writeLine x.line x.data 15 15).detect .cohLost (homeOf x.line).val (BitVec.ofNat 32 (lineAddr x.line))
  else s.writeBack c x

/-- Every line in M written back and every line given up: what a flush of all agents leaves (R197), and the write-back before an L2,
which reports (R262). -/
def State.flushAll (s : State) (report : Bool) : State :=
  let dirty := fun (x : L1Line) => x.st == .m || x.st == .miA
  let s0 := s.landData
  let s1 := s0.each (clusters.filter (fun c => !s.chord.wrapped.getLsbD c.val)) (fun c s =>
    s.each (s.chord.l1d[c].filter dirty) (fun x s => s.putHome c x report))
  let s2 := s1.each slices (fun i s => s.onSlice i (fun h => { h with
    txns := [], tm := [], vd := [], flushed := [], reserved := [], early := [] }))
  -- an access that waited for a line is tried again
  let waits := fun (c : Cl) (e : Egress) => match e.op with
    | .store a _ _ _ => s.chord.l1d[c].any (fun x => x.storeOut == some a)
    | _ => false
  let s3 := s2.each clusters (fun c s => s.onCore c (fun k => { k with
    blocked := false, egress := k.egress.map (fun e => if waits c e then { e with released := false } else e) }))
  s3.onChord (fun h => { h with l1d := Vector.replicate 5 [], net := [] })

/-- The deadline of the last frame sealed before DISARM passes; a frame sealed after it is not waited for (R244 step 1). -/
def State.lastDeadline (s : State) : State :=
  match s.metr.judged, s.metr.openAt with
  | some j, some sealedAt => if sealedAt ≤ s.cres.drainAt then s.advance j.deadline else s
  | _, _ => s

/-- An engine stops with its power; one in TACET stays isolated. -/
def State.stopEngine (s : State) (t : TrkId) : State :=
  if s.trk[t].link = .tacet then (s.setPower (rqTrk t) .off).dropGrant (rqTrk t) else s.engineOff t

/-- The drain finishes (R244): the last deadline passes, the engines stop, every agent is flushed, and the clusters and Chord
enter RETAIN. -/
def State.drain (s : State) : State :=
  let s1 := s.lastDeadline
  let s2 := s1.each trunks (fun t s => s.stopEngine t)
  let s3 := s2.onMetr (fun m => { m with openAt := none, judged := none, nextAt := 0 })
  let sleep := fun (r : Fin 29) (s : State) => if s.powerOf r = .off then s else (s.setPower r .retain).dropGrant r
  let s4 := (s3.flushAll false).withWdogs (fun s =>
    (s.each (clusters.map rqCl) sleep).each (slices.map rqSlice) sleep)
  (s4.enterSeason .winter).fixZones

def execDrainComplete (s : State) : Out :=
  if s.seasonFree && s.cres.season == .autumn then .next s.drain else .next s

end Sys2Proof.Machine
end

