-- ==== Sys2Proof/Machine/Ostinato.lean ====
section
/-!
DEFINITION. Ostinato's march over the memories (R98 to R101), and MEMC: the armed injection (R104) and the two error logs (R102).
-/
namespace Sys2Proof.Machine

/-! ## Regions -/

/-- MEM code and a[23:0] of word `j` of a region (Table 04-8; log 11). -/
def regionWord (r j : Nat) : Byte × BitVec 24 :=
  match regionLoc r j with
  | some l => (l.code, l.a24)
  | none =>
    match regionKind r with
    | .array m first => (m, BitVec.ofNat 24 (first + j))
    | .tracker sl mirror first => (BitVec.ofNat 8 ((if mirror then 0x24 else 0x28) + sl.val), BitVec.ofNat 24 (first + j))
    | .buffer n => let w := Config.bufferRegion n; (field w 24 8, field w 0 24 + BitVec.ofNat 24 j)
    | _ => (0, 0)

/-- The requester of a block buffer by its MEM code (Table 04-8): a trunk engine, the Mirror or the xSPI; none for the Line and
always-on domains. -/
def bufferPower (code : Byte) : Option (Fin 29) :=
  if h : 0x40 ≤ code.toNat ∧ code.toNat < 0x50 then some (rqTrk ⟨code.toNat - 0x40, by omega⟩)
  else match code.toNat with
  | 0x50 => some rqMirl
  | 0x54 => some rqXspi
  | _ => none

/-- The requester whose power state a region's memory follows; none for the Line and always-on domains. -/
def regionPower (r : Nat) : Option (Fin 29) :=
  match regionKind r with
  | .words (.itcm c) _ | .words (.dtcm c) _ => some (rqCl c)
  | .words .chord _ | .words _ _ => none
  | .chordWords sl _ | .tracker sl _ _ => some (rqSlice sl)
  | .array m _ => if m.toNat < 0x10 then some rqStw else some (rqVoice ⟨(m.toNat - 0x10) / 4 % 4, by omega⟩)
  | .buffer n => bufferPower (field (Config.bufferRegion n) 24 8)

/-- The region's memory is in RETAIN or OFF (R100). -/
def State.regionSleeps (s : State) (r : Nat) : Bool :=
  match regionPower r with
  | some q => s.powerOf q == .retain || s.powerOf q == .off
  | none => false

/-- The next region; after the last one a pass is complete. -/
def State.nextRegion (s : State) : State :=
  if s.osti.region.toNat + 1 < regionCount then s.onOsti (fun o => { o with region := o.region + 1, retest := false })
  else
    let msPass := (s.metr.lineTime.toNat - s.osti.passStart.toNat) / Config.ticksPerMs
    (s.onOsti (fun o => { o with
      region := 0, retest := false, lastPass := BitVec.ofNat 32 msPass, passStart := s.metr.lineTime })).cntOsti 0

/-! ## Save, march, restore (R98, R99) -/

/-- The words of the region copied into the save buffer, with the accounting of their reads; the accesses of others go to the
buffer from now on. -/
def State.saveRegion (s : State) : State :=
  let r := s.osti.region.toNat
  let buf : Vector Cell 64 := Vector.ofFn (fun i => match regionLoc r i.val with | some l => s.arrayCell l | none => zeroCell)
  let s1 := s.each (List.range 64) (fun i s => match regionLoc r i with | some l => s.noteRead l .ostinato | none => s)
  let w := regionWord r 0
  s1.onOsti (fun o => { o with save := some buf, whereMem := w.1, whereAddr := w.2 })

/-- A saved word as the restore writes it: clean and poisoned words unchanged, a correctable word corrected, an uncorrectable
word poisoned with its data as read. -/
def restored (c : Cell) : Cell :=
  match decodeSyndrome c.syn with
  | .clean | .poisoned => c
  | .checkBit | .dataBit _ => ⟨c.deliver.1, 0⟩
  | .address | .uncorrectable => ⟨c.data, 0x1FF⟩

/-- A word the restore writes, through an armed injection (R104). A word that the save buffer gives in error is neither counted nor
logged there: its read was accounted at the save (DESIGN CHOICE, log 85). -/
def State.restoreWord (s : State) (l : Loc) (c : Cell) : State :=
  if s.memc.injGo && l.addr / 16 == s.memc.injAddr.toNat then
    (s.setArrayCell l (injected s.memc (restored c))).onMemc (fun m => { m with injGo := false })
  else s.setArrayCell l (restored c)

/-- Every word written back from the save buffer, which ends the redirection. -/
def State.restoreRegion (s : State) : State :=
  match s.osti.save with
  | some buf =>
    let r := s.osti.region.toNat
    let s1 := s.onOsti (fun o => { o with save := none })
    s1.each (List.finRange 64) (fun i s => match regionLoc r i.val with | some l => s.restoreWord l buf[i] | none => s)
  | none => s

/-- PACE as it acts: below 32 acts as 32 (Table 04-10). -/
def Osti.period (o : Osti) : Time := us (max o.pace.toNat 32)

/-- A region starts PACE us after the previous start: skipped in RETAIN or OFF, else under the grant of 4 PU (R100). -/
def execOstinatoRegionStart (s : State) : Out :=
  if !s.osti.enable || s.osti.save.isSome then .next s
  else
    let s1 := s.advance (s.osti.startAt + s.osti.period)
    if s1.regionSleeps s1.osti.region.toNat then
      .next (((s1.onOsti (fun o => { o with startAt := s1.metr.lineTime })).cntOsti 3).nextRegion)
    else if s.holds rqOsti && !s.cres.noticed.contains rqOsti then
      .next ((s1.onOsti (fun o => { o with startAt := s1.metr.lineTime })).saveRegion)
    else .next (s.askGrant rqOsti)

/-- A word that fails the march: counted, logged with kind MARCH, reported; in a tracker's array the tracker retires (R101,
R191). -/
def State.marchFail (s : State) (j : Nat) : State :=
  let r := s.osti.region.toNat
  let (m, a) := regionWord r j
  let d : Word := m ++ a
  let s1 := ((s.cntOsti 1).addUe (memLogEntry s a m 0 4 (Init.code .ostinato))).detect .ostiMarch 0 d
  match regionKind r with
  | .tracker sl mirror _ => s1.retireTracker sl mirror d
  | _ => s1

/-- The march finishes: failing words are reported, the region is restored, and the next one follows. -/
def execOstinatoRegionDone (fails : BitVec 64) (s : State) : Out :=
  if s.osti.save.isSome then
    let s1 := s.each (setBits fails) (fun j s => s.marchFail j)
    .next (s1.restoreRegion.nextRegion)
  else .next s

/-- A revoked grant: the march stops, the region is restored and retested at the next grant, and the grant goes back (R100). -/
def execOstinatoAbort (s : State) : Out :=
  if s.osti.save.isSome && s.cres.noticed.contains rqOsti then
    .next (((s.restoreRegion.onOsti (fun o => { o with retest := true })).dropGrant rqOsti).cntOsti 2)
  else .next (s.when (s.cres.noticed.contains rqOsti) (·.dropGrant rqOsti))

/-- A pass longer than PASS_LIMIT seconds (R101). -/
def execOstiStall (s : State) : Out :=
  if s.osti.enable then
    .next ((s.advance (s.osti.passStart + ms (1000 * s.osti.passLimit.toNat))).detect .ostiStall 0 0)
  else .next s

/-! ## MEMC -/

/-- INJ_GO arms one injection (R104). -/
def State.injArm (s : State) : State := s.onMemc (fun m => { m with injGo := true })

def execMemcInjGo (s : State) : Out := .next (s.stewWrite blkMemc).injArm

def execCeLogPop (i : Initiator) (s : State) : Out :=
  .next (popAnswer s i blkMemc s.memc.ceLog (s.onMemc (fun m => { m with ceLog := m.ceLog.pop })))

def execUeLogPop (i : Initiator) (s : State) : Out :=
  .next (popAnswer s i blkMemc s.memc.ueLog (s.onMemc (fun m => { m with ueLog := m.ueLog.pop })))

end Sys2Proof.Machine
end

