-- ==== Sys2Proof/Machine/Reset.lean ====
section
/-!
DEFINITION. Reset (11): sources, assertion by level (R254 to R259, R262, R264, R265), the release order (Table 11-3), the warm
check (R263), and what the Mirror Link and the mailbox do at a reset.
-/
namespace Sys2Proof.Machine

/-! ## The Mirror Link at a reset (R323, R324) -/

/-- The Verdict words that a DELTA carries. -/
def deltaWords : Packet → List Nat
  | .delta i _ ws _ => (List.range ws.length).map (fun k => i.toNat + k)
  | _ => []

/-- A word index put into a rising list without repeats. -/
def insertNat (n : Nat) : List Nat → List Nat
  | [] => [n]
  | x :: xs => if n < x then n :: x :: xs else if n = x then x :: xs else x :: insertNat n xs

/-- Packets that are made again from current state after a retrain: epochs, sweeps, journal, HELLO and requests; STATE, DELTA,
RESET_NOTICE and SYNC packets are not kept. -/
def Packet.kept : Packet → Bool
  | .epochPropose .. | .epochAck .. | .epochGo .. | .goAck .. | .epochDrop .. | .sweep .. | .journal .. | .resetReq .. => true
  | _ => false

/-- A retrain (R324): SEQ restarts at 0 both ways, unacknowledged packets are discarded with their DELTA words dirty again, a
session is reopened by its sender. The link is down until it has trained. -/
def State.retrain (s : State) : State :=
  s.onMirl (fun m => { m with
    linkUp := false, nextSeq := 0, lastSeq := 0xFF, gapNaked := false, ackq := [], resend := 0, unacked := []
    dirty := (m.unacked.map (fun p => deltaWords p.2) ++ m.txq.map deltaWords).flatten.foldl (fun xs n => insertNat n xs) m.dirty
    txq := (m.unacked.map (·.2)).filter Packet.kept ++ m.txq.filter Packet.kept
    requeued := match m.session with | some x => if x.outgoing then some x.kind else m.requeued | none => m.requeued
    session := none })

/-- RESET_NOTICE leaves before the reset reaches the engine. -/
def State.sendNotice (s : State) (level : BitVec 2) : State :=
  if s.mirl.linkUp then
    (s.onMirl (fun m => { m with out := some (.packet m.nextSeq (.resetNotice level)) })).cntTxPkt
  else s

/-- The engine's registers reset; the pair stays formed until the peer is declared absent (R324). -/
def State.mirlReset (s : State) : State :=
  s.retrain.onMirl (fun m => { m with
    enable := false, relink := false, relinkHeld := false, event := 0, irqEn := 0, mirrorBase := 0, offset := 0, good := 0, txPkt := 0, rxPkt := 0
    cnt := Vector.replicate 6 0, held := [], download := [] })

/-! ## Clocks and domains (R260) -/

/-- The block has its clock, or the grant it needs to start it (R260). -/
def State.clockable (s : State) (r : Fin 29) : Bool := s.powerOf r == .run || s.powerOf r == .idle || s.holds r

/-- A domain whose grant is held gets its clock; from OFF its memories are filled first. -/
def State.clockUp (s : State) (r : Fin 29) : State :=
  match s.powerOf r with
  | .run => s
  | .idle => s.setPower r .run
  | _ => s.when (s.holds r) (·.wake r)

/-- The next part of a sequence once every block it needs has its clock; until then their grants are asked for, each in its class
of Table 10-4 (R260 step 1). -/
def State.underGrants (s : State) (rs : List (Fin 29)) (f : State → State) : State :=
  if rs.all s.clockable then f (s.each rs (fun r s => s.clockUp r))
  else s.each (rs.filter (fun r => !s.clockable r)) (fun r s => s.askGrant r)

/-- Headers of the blocks of a domain reset. -/
def State.resetHdrs (s : State) (p : BlkId → Bool) : State :=
  { s with
    hdr := Vector.ofFn (fun b => if p b then .reset else s.hdr[b])
    snaps := s.snaps.filter (fun x => !p x.blk) }

/-- Blocks of the Line domain (R254). -/
def lineBlock (b : BlkId) : Bool :=
  b == blkCres || b == blkFhub || b == blkGov || b == blkUnis || (trkOfBlk b).isSome

/-- Blocks of the always-on domain (Table 10-1, R293). -/
def aonBlock (b : BlkId) : Bool := b == blkMetr || b == blkRstc || b == blkFuse || b == blkLcyc

/-- Blocks of the System domain: every other block (R254). -/
def systemBlock (b : BlkId) : Bool := !lineBlock b && !aonBlock b

/-! ## What a level resets (Table 11-1) -/

/-- A slice after a reset: empty, in the mode its tracker record gives (R191); `back`: a forced mode ends, at an L0 or L1, and at the
slice's own L3 after a MODE_REQ of 1 (R192, R198). -/
def Slice.cleared (h : Slice) (back : Bool) : Slice :=
  { Slice.reset with
    mode := h.modeAfter back, switchTo := if back then none else h.switchTo, tmFailed := h.tmFailed, vdFailed := h.vdFailed }

/-- A saved region goes back into its array before Ostinato is reset. -/
def State.ostiReset (s : State) : State :=
  let s1 := s.restoreRegion
  { s1 with osti := { Osti.reset with passStart := s.metr.lineTime, startAt := s.metr.lineTime } }

/-- The System domain reset; memories, journal and stored response stay (L2), and every core is held in reset. An L2 (`warm`) keeps the
wrappers of the Voices that are out; an L1 resets UNIS too, and ends forced slice modes (R192). -/
def State.resetSystem (s : State) (warm : Bool) : State :=
  let s1 := s.ostiReset.mirlReset
  let s2 := s1.withWdogs (fun s => { s with core := Vector.replicate 5 .reset })
  let s3 := s2.onChord (fun h => { Chord.reset with
    slice := h.slice.map (·.cleared (!warm)), wrapped := if warm then h.wrapped &&& 0x0F else 0 })
  let s4 := s3.onHmbx (fun h => { h with
    ready := false, coda := false, bootWait := false, done := false, cur := none, prepared := none, fifo := [], evtSeq := 0
    evtLost := false, cnt := Vector.replicate 5 0, resetLater := none, irqDone := false, quiet := true })
  let s5 := s4.onRst (fun r => { r with drunor := false })
  { s5.resetHdrs systemBlock with memc := .reset, arbCfg := 0, ans := ⟨0, false, false, [], 0⟩ }

/-- The Fault Hub reset: the fault log is in the always-on domain, and sources hold their reports (R255, R265). -/
def Fhub.cleared (h : Fhub) : Fhub :=
  { Fhub.reset with
    head := h.head, log := h.log, order := h.order, maxClass := h.maxClass, overwrite := h.overwrite, seq := h.seq
    pending := h.pending }

/-- The Governor's state when it is released: FERMATA if the latch is set (R230, R265), and in Coda (R290). -/
def Gov.released (g : Gov) (held : Bool) : Gov :=
  { g with state := if held then .fermata else .disarmed, tripOn := !held, rbSkip := rbAllow }

/-- The Line domain reset, before its release: its units that BIST failed stay failed (R279). -/
def State.resetLine (s : State) : State :=
  let fail := s.rst.bootRec
  let s1 := s.onUnis (fun u => { Unis.reset with
    notLive := u.notLive, stwMasked := fail.stwFail
    stwMaskNum := Vector.ofFn (fun i => if fail.stwFail.getLsbD i.val then 1 else 0) })
  let s2 := { s1 with
    trk := Vector.ofFn (fun i => if fail.trunkFail.getLsbD i.val then { Trunk.reset with link := .tacet } else .reset)
    gov := { Gov.reset with state := if s.aon.latch then .fermata else .disarmed }
    hub := s.hub.cleared, cres := .reset }
  s2.resetHdrs lineBlock

/-- Everything that only RAM and the drained schedule held: L0 and L1 zero-fill every memory, and no frame runs. -/
def State.clearLine (s : State) : State :=
  let s1 := s.zeroAll.onMetr (fun m => { m with openAt := none, judged := none, nextAt := 0, sweepNext := some m.sweepSel })
  let s2 := { s1 with drunor := .reset, mirl := { Mirl.reset with out := s.mirl.out } }
  let s3 := s2.onHmbx (fun h => { h with
    lastTag := 0, lastStatus := 0, busyTag := 0, busy := false, stored := none, inProgress := none
    cmd := Vector.replicate 16 0, rsp := Vector.replicate 64 0 })
  s3.onRst (fun r => { r with
    sealed := 0, warmCrc := Vector.replicate 4 0, digest := none, drunorVersion := 0, appVersion := 0, warm := false
    coda := false, failed := false, rejected := [], drunorSrc := none, bistTodo := [], bistManual := false, bistFatal := none
    bootWdog := false })

/-- L0: every domain. The flash, the rails, the temperature and the queue are no part of it; the attempt counter and the boot record
stay unless the cause is POR (R256). The accepted levels of ARM and ESTOP start inactive (Table 09-9), and a low pin is accepted, and
reported, as any change (R204; log 64). -/
def State.assertL0 (s : State) (por : Bool) : State :=
  { State.reset with
    pending := s.pending
    mem := { Mems.reset with flashA := s.mem.flashA, flashB := s.mem.flashB }
    aon := { Aon.reset with
      railBad := s.aon.railBad, railOkSince := if s.aon.railBad = 0 then some 0 else none, hot := s.aon.hot }
    rst := { Rstc.reset with
      array := s.rst.array
      attempts := if por then 0 else s.rst.attempts, bootRec := if por then .reset else s.rst.bootRec }
    mirl := { Mirl.reset with out := s.mirl.out }
    free := s.free }

/-- L1: the Line and System domains, and every memory. -/
def State.assertL1 (s : State) : State :=
  let s1 := ((s.sendNotice 1).resetSystem false).clearLine.resetLine
  (s1.onHmbx (fun h => { h with resetSeen := true })).onRst (fun r => { r with rstout := false })

/-- The start of a ride (R267, R268): words without FDONE are discarded, the commit window closes (R269). -/
def State.ride (s : State) : State :=
  let n := (clusters.map (fun c => s.gov.staged[c].length)).foldl (· + ·) 0
  let s1 := (s.onGov (fun g => { g with riding := true, staged := Vector.replicate 5 [] })).cntGov .outDiscard n
  s1.when s1.gov.commitWin (fun s => (s.onGov (fun g => { g with commitWin := false })).discardStaging)

/-- L2: the write-back (R262), then the System domain; the line rides through. -/
def State.assertL2 (s : State) : State :=
  let s1 := ((((s.sendNotice 2).flushAll true).interruptCommand 2).resetSystem true).ride
  let s2 := (s1.onHmbx (fun h => { h with resetSeen := true })).onUnis (fun u => { u with
    stwAway := some s.metr.lineTime, tacet := putBit u.tacet stw.val false })
  let s3 := s2.onUnis (fun u => if u.stwDegraded then u else { u with stwMasked := 0 })
  (s3.onRst (fun r => { r with warm := true })).cntRst 0

/-- L3 of a Voice: its wrapper puts it in TACET first; its registers are reset, its TCMs stay (R264). -/
def State.assertVoice (s : State) (v : Vc) : State :=
  let c := vcl v
  let s1 := s.voiceOut v .other 0 0
  (s1.withWdogs (fun s => s.onCore c (fun _ => .reset))).resetL1 c

/-- L3 of the Steward: its command ends, its lines are reclaimed as for a dead agent (R117, R305). -/
def State.assertSteward (s : State) : State :=
  let s1 := (s.interruptCommand 3).killAgent stw
  let s2 := s1.withWdogs (fun s => s.onCore stw (fun _ => .reset))
  let s4 := (s2.resetL1 stw).onUnis (fun u => { u with
    stwAway := some s.metr.lineTime, stwMasked := if u.stwDegraded then u.stwMasked else 0
    tacet := putBit u.tacet stw.val false })
  s4.onRst (fun r => { r with drunor := false })

/-- L3 of a trunk engine: its wrapper puts it in TACET first, so its zone stays off until bring-up and a new PERMIT_CONFIRM (R264, R70;
log 90). One that BIST failed stays in TACET until L0 (R279). -/
def State.assertTrunk (s : State) (t : TrkId) : State :=
  let n := s.trk[t].txq.length
  let s1 := (s.cntGov .tacet n).onGov (fun g => { g with
    zoneTrip := g.zoneTrip ||| oneHot 16 t.val, trainedSince := putBit g.trainedSince t.val false })
  let link := if s.rst.bootRec.trunkFail.getLsbD t.val then .tacet else .down
  let s2 := (s1.onTrk t (fun _ => { Trunk.reset with link := link, veto := true })).resetHdrs (· == blkTrk t)
  ((s2.setPower (rqTrk t) .off).dropGrant (rqTrk t)).fixZones

/-- L4 of the Governor (R265). -/
def State.assertGov (s : State) : State :=
  ({ s with gov := ({ Gov.reset with hasCommit := false } : Gov).released (s.aon.latch || s.rst.coda) }.resetHdrs (· == blkGov)).fixZones

/-- L4 of the mailbox: the command in progress and the queue of events are lost. -/
def State.assertHmbx (s : State) : State :=
  (s.onHmbx (fun h => { Hmbx.reset with
    rejected := h.rejected, rejectCount := h.rejectCount, resetSeen := h.resetSeen, stored := h.stored, lastTag := h.lastTag
    lastStatus := h.lastStatus, quiet := h.quiet })).resetHdrs (· == blkHmbx)

/-- L3 and L4 of one target (Table 11-4). -/
def State.assertTarget (s : State) (target : Byte) : State :=
  let n := target.toNat
  if h : n < 4 then s.assertVoice ⟨n, h⟩
  else if n = 4 then s.assertSteward
  else if h : 8 ≤ n ∧ n < 12 then s.onSlice ⟨n - 8, by omega⟩ (fun h => h.cleared (h.modeReq == 1))
  else if h : 16 ≤ n ∧ n < 32 then s.assertTrunk ⟨n - 16, by omega⟩
  else if n = 0x20 then ((s.sendNotice 2).mirlReset).resetHdrs (· == blkMirl)
  else if n = 0x21 then s.assertHmbx
  else if n = 0x22 then s.resetHdrs (· == blkXspi)
  else if n = 0x23 then s.resetHdrs (· == blkGpio)
  else if n = 0x24 then s.resetHdrs (· == blkAmon)
  else if n = 0x25 then s.assertGov
  else if n = 0x26 then ({ s with hub := s.hub.cleared }).resetHdrs (· == blkFhub)
  else s

/-- The first step of Table 11-3 after an assertion; L3 and L4 have the one step of their target. -/
def firstStep : Level → Nat
  | .l0 => 2 | .l1 => 3 | .l2 => 5 | .l3 | .l4 => 9

/-- A request asserted: the level's effect, and the sequence that will release it. -/
def State.assertReset (s : State) (q : RstReq) : State :=
  let s1 := match q.level with
    | .l0 => s.assertL0 q.por
    | .l1 => s.assertL1
    | .l2 => s.assertL2
    | .l3 | .l4 => s.assertTarget q.target
  s1.onRst (fun r => { r with
    seq := some ⟨q.level, q.target, firstStep q.level⟩, busy := true, lastSrc := BitVec.ofNat 4 q.src.val
    lastLevel := BitVec.ofNat 3 q.level.toNat, lastTarget := q.target })

/-- One request goes before another: the deeper level; among L0s POR, which clears what the others keep (R256). -/
def RstReq.above (q p : RstReq) : Bool := decide (q.level.toNat < p.level.toNat) || (q.level == p.level && q.por && !p.por)

/-- The deepest request, the first among equals (R259). -/
def deepest : List RstReq → Option RstReq
  | [] => none
  | q :: qs => match deepest qs with
    | some p => if p.above q then some p else some q
    | none => some q

/-- The bits of RST_CAUSE of a list of requests. -/
def causeBits (qs : List RstReq) : BitVec 10 := qs.foldl (fun m q => m ||| oneHot 10 q.src.val) 0

/-- The requesters whose clocks a reset needs: at L0 and L1 none, for the reset controller starts them (R260). -/
def domainOf (q : RstReq) : List (Fin 29) :=
  let n := q.target.toNat
  match q.level with
  | .l0 | .l1 => []
  | .l2 => slices.map rqSlice ++ clusters.map rqCl
  | .l3 | .l4 =>
    if h : n < 5 then [rqCl ⟨n, h⟩]
    else if h : 8 ≤ n ∧ n < 12 then [rqSlice ⟨n - 8, by omega⟩]
    else if h : 16 ≤ n ∧ n < 32 then [rqTrk ⟨n - 16, by omega⟩]
    else if n = 0x20 then [rqMirl] else if n = 0x22 then [rqXspi] else []

/-- The controller asserts a request, once the domains it reaches have their clocks (R260); the requests it covers are done with it. -/
def State.assertNow (s : State) (q : RstReq) : State :=
  let rest := s.rst.requests.filter (fun p => !covers ⟨q.level, q.target, 0⟩ p.level p.target)
  let keep := if q.level = .l0 then causeBits s.rst.requests else s.rst.cause
  s.underGrants (domainOf q) (fun s => (s.assertReset q).onRst (fun r => { r with requests := rest, cause := keep }))

/-- A single target's reset is refused when its idle check fails at its assertion (R265). -/
def State.refuse (s : State) (q : RstReq) : State :=
  (s.onRst (fun r => { r with refused := true, requests := r.requests.erase q })).when (sliceOfTarget q.target).isSome
    (·.evChord .resetRefused)

/-! ## Sources (Table 11-2) -/

/-- POR: VDD_AON rises through its power-on threshold (R256). -/
def execPor (s : State) : Out := .next (s.requestReset 0 .l0 0 true)

/-- BOR: a rail stays below its BOR threshold (R353). -/
def execBor (_ : Rail) (s : State) : Out := .next (s.requestReset 1 .l0 0 false)

/-- RESET_N low for 1 us requests L1; for 10 ms it also ends the hold of R271, which starts a new attempt. -/
def execResetN (long : Bool) (s : State) : Out :=
  if s.rst.optionHold then
    if long then .next (s.onRst (fun r => { r with
      optionHold := false, failed := false, restarts := 0, seq := some ⟨.l0, 0, 2⟩, busy := true }))
    else .next s
  else .next (s.requestReset 2 .l1 0 false)

/-- GO in RST_REQ: the Steward as source 4, JTAG as source 9 (R293); no other initiator may write it. -/
def execRstReqGo (i : Initiator) (s : State) : Out :=
  match i with
  | .steward => .next ((s.stewWrite blkRstc).rstReqGo 4)
  | .jtag => .next ((s.touchBlk .jtag blkRstc).rstReqGo 9)
  | _ => .next s

/-- Rails by monitor bit. -/
def railBit : Rail → Nat
  | .vddCore => 0 | .vddAon => 1 | .vddio3v3 => 2 | .vddio1v8 => 3 | .vddLvds => 4 | .vdda => 5

/-- A rail stays outside its SUPPLY window (R353). -/
def execSupplyExcursion (r : Rail) (s : State) : Out :=
  .next (((s.onAon (fun a => { a with railBad := a.railBad ||| oneHot 6 (railBit r), railOkSince := none })).causeBack).detect
    .supply 0 (BitVec.ofNat 32 (railBit r)))

/-- The rail is inside its window again: SUPPLY stops reporting; with the last one the 100 us of R354 begin. -/
def execSupplyInWindow (r : Rail) (s : State) : Out :=
  let bad := putBit s.aon.railBad (railBit r) false
  .next (s.onAon (fun a => { a with
    railBad := bad, railOkSince := if bad = 0 && a.railBad != 0 then some s.metr.lineTime else a.railOkSince }))

/-- Above 125 degrees (R367). -/
def execThermal (s : State) : Out := .next (((s.onAon (fun a => { a with hot := true })).causeBack).detect .thermal 0 0)

/-- At 125 degrees or below again. -/
def execJunctionTemperatureRecovered (s : State) : Out := .next (s.onAon (fun a => { a with hot := false }))

end Sys2Proof.Machine
end

