-- ==== Sys2Proof/Machine/Boot.lean ====
section
/-!
DEFINITION. Start-up (11): the release order (Table 11-3), the option phase (R270 to R276), BIST (R277 to R280), image checks
(R283 to R286), the boot watchdog, failed starts, Coda and READY (R287 to R292).
-/
namespace Sys2Proof.Machine

/-! ## Failed starts and Coda (R289 to R292) -/

/-- The fields of the boot record that a failed start and READY update (R292); a hold of the option phase has sampled nothing new. -/
def State.updateRecord (s : State) : State :=
  s.onRst (fun r =>
    let b := r.bootRec
    let o := r.opt
    { r with bootRec := { b with
      format := 1
      bootsel := if r.optionHold then b.bootsel else o.bootsel, clkmode := if r.optionHold then b.clkmode else o.clkmode
      optrCode := if r.optionHold then b.optrCode else o.optrCode, optrAdc := if r.optionHold then b.optrAdc else o.optrAdc
      strapRsvd := if r.optionHold then b.strapRsvd else o.clkmode == 3
      attempts := r.attempts, lc := match r.lc with | .blank => 0 | .factory => 1 | .develop => 2 | .deployed => 3 | .retired => 4
      time := s.metr.lineTime, lastLevel := r.lastLevel, lastSrc := r.lastSrc
      app := decide (r.sealed != 0) } })

/-- Only the always-on domain, the host port and the Steward run in Coda (R246): every other grant is given back; the engines, the
Mirror and the xSPI stop, the Voices and Chord keep their contents. -/
def State.codaPower (s : State) : State :=
  let rest := fun (r : Fin 29) (p : PowerState) =>
    if r = rqStw then p
    else if (clOfRq r).isSome || (sliceOfRq r).isSome then (if p = .off then .off else .retain) else .off
  s.onCres (fun c => { c with
    power := Vector.ofFn (fun r => rest r c.power[r]), grants := c.grants.filter (· == rqStw), waiting := [], noticed := []
    released := [], booked := 0 })

/-- Coda (R290): the Governor held in FERMATA, the engines DOWN, the Voices in reset; the Steward is restarted in the ROM when the
last step of the sequence has its grant. -/
def State.enterCoda (s : State) (cause : BitVec 3) : State :=
  let lvl : Level := match s.rst.seq with | some q => q.level | none => .l0
  let s1 := (s.onRst (fun r => { r with bootRec := { r.bootRec with codaCause := cause } })).updateRecord
  let s2 := s1.onRst (fun r => { r with
    coda := true, seq := some ⟨lvl, 0, 10⟩, busy := true, bootWdog := false, failed := false, drunor := false, codaDue := none
    bistTodo := [], lc := if r.optionHold then .deployed else r.lc, optionHold := false })
  let s3 := s2.onGov (fun g => { g with state := .fermata, epoch := 0, stage := none, tripOn := false })
  let s4 := s3.each trunks (fun t s => if s.trk[t].link = .tacet then s else s.engineOff t)
  let s5 := s4.withWdogs (fun s => { s with core := Vector.replicate 5 .reset })
  let s6 := (s5.onMirl (fun m => { m with enable := false, linkUp := false })).codaPower
  let s7 := (s6.onCres (fun c => { c with season := .winter })).onMetr (fun m => { m with openAt := none, judged := none, nextAt := 0 })
  (s7.askGrant rqStw).fixZones

/-- The device's own logic requests a reset, recorded as source 7 (log 25). -/
def State.ownReset (s : State) (l : Level) : State :=
  (s.recordCause 7).onRst (fun r => { r with requests := r.requests ++ [⟨7, l, 0, false⟩] })

/-- A failed start (R289): counted, its reason recorded, Coda at the third; otherwise the device tries again from `next`. The boot
watchdog's L1 runs before that Coda too (R287). -/
def State.failedStart (s : State) (reason detail : Byte) (next : Option Level) : State :=
  let s1 := s.onRst (fun r => { r with
    attempts := satInc r.attempts, failed := true
    bootRec := { r.bootRec with reasons := (r.bootRec.reasons <<< 16) ||| place 48 0 reason ||| place 48 8 detail } })
  let s2 := s1.updateRecord
  if 3 ≤ s2.rst.attempts.toNat then
    if next = some .l1 then (s2.onRst (fun r => { r with codaDue := some 1 })).ownReset .l1 else s2.enterCoda 1
  else match next with
  | some l => s2.ownReset l
  | none => s2

/-! ## The option phase (R270 to R276) -/

/-- The code of Table 11-9 whose window holds a conversion. -/
def optrWindow (adc : Nat) : Nat :=
  (([34, 102, 170, 238, 307, 374, 441, 510, 580, 647, 715, 784, 852, 920, 988] : List Nat).filter (fun top => decide (top < adc))).length

/-- The mean of the conversions. -/
def mean (xs : List (BitVec 10)) : Nat := (xs.map (·.toNat)).foldl (· + ·) 0 / (if xs.length = 0 then 1 else xs.length)

/-- The straps: of the first try and its up to three retries, the first whose 16 samples agree (R272). -/
def strapsOf (tries : List (List (BitVec 4))) : Option (BitVec 4) :=
  ((tries.take 4).find? (fun xs => xs.length == 16 && xs.all (· == xs.head?.getD 0))).map (fun xs => xs.head?.getD 0)

/-- The moves of the life-cycle state (R276). -/
def lcMoves (a b : LifeCycle) : Bool :=
  a == b || match a, b with
    | .blank, .factory | .factory, .develop | .factory, .deployed | .develop, .deployed | _, .retired => true
    | _, _ => false

/-- The life-cycle fuses as they read: of a device read before, a state it cannot have moved to leaves the old one (R276, R352). -/
def State.lcRead (s : State) (o : OptionReading) : Option LifeCycle :=
  if o.lcA.isNone || o.lcA != o.lcB then none
  else match s.rst.array, o.lcA with
    | some (_, old), some new => some (if lcMoves old new then new else old)
    | _, x => x

/-- Floor fuses that programming has changed: a floor can only be raised (R226). -/
def raised (old new : Vector (BitVec 3) 60) : Vector (BitVec 3) 60 :=
  Vector.ofFn (fun i => if old[i] < new[i] then new[i] else old[i])

/-- The other fuses as they read: outside FACTORY nothing can have changed them since they were last read (Table 11-10, R352). -/
def State.fusesRead (s : State) (f : Fuses) : Fuses :=
  match s.rst.array with
  | some (old, .factory) => { f with floor := raised old.floor f.floor }
  | some (old, _) => old
  | none => f

/-- The code that a reading fails with, if it fails (Tables 11-6, 11-7). The reference is awaited before step 4 (R273). -/
def State.optionFailure (s : State) (o : OptionReading) : Option Byte :=
  let clk : BitVec 2 := field ((strapsOf o.straps).getD 0) 2 2
  let w := optrWindow (mean o.optr)
  if o.resetHeld then some 7
  else if o.fuses.isNone then some 1
  else if (strapsOf o.straps).isNone then some 2
  else if !(o.optr.length == 8 && o.optr.all (fun x => optrWindow x.toNat == w)) then some 3
  else if clk != 2 && !o.refQualified then some 6
  else if (s.lcRead o).isNone then some 4
  else if clk == 2 && s.lcRead o != some .develop then some 5
  else none

/-- What the sampled straps and OPTR select (Tables 11-8, 11-9). -/
def optionsOf (o : OptionReading) (lc : LifeCycle) : Options :=
  let strap := (strapsOf o.straps).getD 0
  let adc := mean o.optr
  let w := optrWindow adc
  -- 13 outside FACTORY acts as 14
  let code := if w = 13 ∧ lc ≠ .factory then 14 else w
  let ladder := decide (code < 12)
  { bootsel := field strap 0 2
    clkmode := field strap 2 2
    optrCode := BitVec.ofNat 4 code
    optrAdc := BitVec.ofNat 10 adc
    role := if !ladder then .solo else if code / 4 = 0 then .solo else if code / 4 = 1 then .a else .b
    trunks8 := ladder && code / 2 % 2 == 1
    quad := ladder && code % 2 == 1
    bench := code == 12 }

/-- The cause of Coda that the options give, if any (R290): 2 BOOTSEL, 3 OPTR 14, 4 BLANK. -/
def State.codaOption (s : State) : Option (BitVec 3) :=
  if s.rst.lc = .blank then some 4
  else if s.rst.opt.optrCode = 14 then some 3
  else if s.rst.opt.bootsel = 3 then some 2
  else none

/-- The phase restarts from step 1; the fifteenth restart in a row is a hold, one failed start (R270, R271). -/
def State.phaseRestart (s : State) (code : Byte) : State :=
  let n := s.rst.restarts + 1
  let s1 := s.onRst (fun r => { r with restarts := n, bootRec := { r.bootRec with optionCode := code } })
  if 15 ≤ n then (s1.onRst (fun r => { r with optionHold := true, seq := none, requests := [] })).failedStart 0x01 code none else s1

/-- The option phase completes, or restarts. -/
def State.optionEnd (s : State) (o : OptionReading) : State :=
  match s.optionFailure o with
  | some code => s.phaseRestart code
  | none =>
    let lc := (s.lcRead o).getD .blank
    let opt := optionsOf o lc
    let f := s.fusesRead (o.fuses.getD s.rst.fuses)
    let s1 := s.onRst (fun r => { r with
      restarts := 0, opt := opt, lc := lc, fuses := f, array := some (f, lc), seq := some ⟨.l0, 0, 3⟩
      bootWdog := opt.bootsel != 3
      bootRec := { r.bootRec with codaCause := 0 } })
    s1.onMetr (fun m => { m with refOk := o.refQualified && opt.clkmode != 2 })

def execOptionPhaseEnd (o : OptionReading) (s : State) : Out :=
  match s.rst.seq with
  | some ⟨.l0, _, 2⟩ => .next (s.optionEnd o)
  | _ => .next s

/-- The controller asserts the deepest request (R259, R260); one that is no deeper waits for the running sequence to end. In the
option phase a request restarts the phase instead (R270). -/
def execResetAssertion (s : State) : Out :=
  match deepest s.rst.requests with
  | none => .next s
  | some q =>
    if s.inOptionPhase && !q.por then
      .next ((s.onRst (fun r => { r with requests := r.requests.erase q })).phaseRestart 7)
    else if !q.por && (match s.rst.seq with | some x => decide (x.level.toNat ≤ q.level.toNat) | none => false) then .next s
    else if (q.level == .l3 || q.level == .l4) && !s.idleCheck q.target then .next (s.refuse q)
    else .next (s.assertNow q)

/-! ## BIST (R277 to R280) -/

/-- The boot record cleared of the results of an earlier BIST. -/
def BootRec.newBist (b : BootRec) : BootRec :=
  { b with bist := 0, voiceFail := 0, stwFail := 0, trackerFail := 0, trunkFail := 0, mirlFail := false, duration := 0 }

/-- The slice runs LBIST, with its grant of 160 PU (Table 10-4). -/
def lbistSlice (i : Fin 8) : Bool := i == 3 || i == 4 || i == 5

/-- Requester 28 asks for the grant of the next slice (R277, Table 10-4). -/
def State.bistAsk (s : State) : State :=
  (s.onCres (fun c => { c with lbist := (s.rst.bistTodo.head?.map lbistSlice).getD false })).askGrant rqBist

/-- BIST starts with its slices, lowest first. Results stand until the next L0 (R279), whose BIST starts from a clean record. -/
def State.startBist (s : State) (slices : List (Fin 8)) (manual : Bool) : State :=
  (s.onRst (fun r => { r with
    bistTodo := slices, bistManual := manual, bistFatal := none
    bootRec := if manual then r.bootRec else r.bootRec.newBist })).bistAsk

/-- Budget of a slice in ms (Table 11-11). -/
def bistBudget (i : Fin 8) : Nat := #[5, 5, 70, 25, 60, 35, 30, 20][i.val]?.getD 0

/-- A slice overruns its budget and is stopped (R277). -/
def overran (r : BistResult) (i : Fin 8) : Bool := decide (bistBudget i < r.ms.toNat)

/-- The units of an LBIST slice whose signature differs from the golden one, or is missing (R278). -/
def State.badSignatures (s : State) (i : Fin 8) (n : Nat) (r : BistResult) : Nat → Bool :=
  fun k => decide (k < n) && r.signatures[k]? != some (getN s.rst.fuses.golden (i.val - 3) 0)

/-- The codes a full run of common injections must show: agreement, then for each of the 1,024 bits mismatch on both comparators
and agreement (R111). -/
def commonSchedule : List (BitVec 4) := 5 :: (List.replicate 1024 [0xA, 5]).flatten

/-- The codes of the one-sided injections: for each segment UNA's mismatch alone, then UNB's, each recorded as UNISON_SPLIT without a
reaction (R111). -/
def sidedSchedule : List (BitVec 4) := (List.replicate 32 [6, 9]).flatten

/-- A Voice's injections all show what the schedule expects; an unexpected or missing report fails S8 (R111). -/
def unisonPassed (x : UnisonRun) : Bool := x.common == commonSchedule && x.sided == sidedSchedule

/-- The Voices a slice fails: by their memories (S3), their signature (S5) or their injections (S8). -/
def State.voicesFailed (s : State) (i : Fin 8) (r : BistResult) : BitVec 4 :=
  r.voices ||| (List.range 4).foldl (fun m k => putBit m k
    ((i == 4 && s.badSignatures i 4 r k) || (i == 7 && !unisonPassed (getN r.unison k ⟨[], []⟩)))) 0

/-- The Steward cores a slice fails (S4). -/
def State.coresFailed (s : State) (i : Fin 8) (r : BistResult) : BitVec 3 :=
  (List.range 3).foldl (fun m k => putBit m k (i == 3 && s.badSignatures i 3 r k)) 0

/-- A result names a unit of those that Table 11-11 lists one by one. -/
def State.bistNamed (s : State) (i : Fin 8) (r : BistResult) : Bool :=
  s.voicesFailed i r != 0 || s.coresFailed i r != 0 || r.trunks != 0 || r.trackers != 0 || r.mirl

/-- A slice's result is fatal (Table 11-11); an overrun that names no unit is fatal. -/
def State.bistIsFatal (s : State) (i : Fin 8) (r : BistResult) : Bool :=
  r.fatal || r.voters || decide (2 ≤ popCount (s.coresFailed i r)) || (i == 5 && s.badSignatures i 1 r 0) ||
    (r.mirl && s.rst.opt.role != .solo) || (s.rst.bootRec.voiceFail ||| s.voicesFailed i r) == 15 ||
    (overran r i && !s.bistNamed i r)

/-- A slice's result in the boot record (Table 11-15). -/
def State.recordSlice (s : State) (i : Fin 8) (r : BistResult) : State :=
  let code : BitVec 2 := if overran r i then 3 else if s.bistIsFatal i r then 2 else if s.bistNamed i r then 1 else 0
  s.onRst (fun x =>
    let b := x.bootRec
    { x with bootRec := { b with
      bist := putField b.bist (2 * i.val) code, duration := putField b.duration (8 * i.val) (BitVec.ofNat 8 (min r.ms.toNat (bistBudget i)))
      voiceFail := b.voiceFail ||| s.voicesFailed i r, stwFail := b.stwFail ||| s.coresFailed i r
      trackerFail := b.trackerFail ||| r.trackers, trunkFail := b.trunkFail ||| r.trunks, mirlFail := b.mirlFail || r.mirl } })

/-- The units that a slice failed, without being fatal, stand failed (R279). -/
def State.failUnits (s : State) (i : Fin 8) (r : BistResult) : State :=
  let cores := s.coresFailed i r
  let s1 := s.onUnis (fun u => { u with
    notLive := u.notLive ||| s.voicesFailed i r
    stwMasked := if cores = 0 then u.stwMasked else cores
    stwMaskNum := Vector.ofFn (fun k => if cores.getLsbD k.val then u.stwMaskNum[k] + 1 else u.stwMaskNum[k]) })
  let s2 := s1.each (trunks.filter (fun t => r.trunks.getLsbD t.val)) (fun t s => s.engineTacet t)
  s2.each slices (fun k s =>
    (s.when (r.trackers.getLsbD k.val) (·.retireTracker k true 0)).when (r.trackers.getLsbD (4 + k.val)) (·.retireTracker k false 0))

/-- What a slice destroys (R277, R280): S3 every SRAM, S4 the Steward's cores, S5 and S8 the Voices', S6 the Chord homes. Until the
L0's or L1's own fill nothing runs that could read what the march leaves (log 88). -/
def State.destroy (s : State) (i : Fin 8) : State :=
  let halt := fun (cs : List Cl) (s : State) => s.withWdogs (fun s => s.each cs (fun c s => s.onCore c (fun _ => .reset)))
  match i.val with
  | 2 => ((s.zeroAll.onChord (fun h => { h with
      l1d := Vector.replicate 5 [], slice := h.slice.map (fun x => { x with tm := [], vd := [] }) })) |> halt clusters).onRst
        (fun r => { r with drunor := false })
  | 3 => (halt [stw] s).onRst (fun r => { r with drunor := false })
  | 4 | 7 => halt (voices.map vcl) s
  | 5 => s.onChord (fun h => { h with slice := h.slice.map (·.cleared false), net := [] })
  | _ => s

/-- The last slice has ended: at start-up a fatal one fails the start (R279) and else the next step of Table 11-3 follows; after BIST_REQ
an L1 (R280). -/
def State.bistOver (s : State) : State :=
  if s.rst.bistManual then (s.onRst (fun r => { r with bistManual := false, bistFatal := none })).ownReset .l1
  else match s.rst.bistFatal with
    | some d => (s.onRst (fun r => { r with seq := none, bistFatal := none })).failedStart 0x02 d (some .l0)
    | none => s.onRst (fun r => { r with seq := some ⟨.l0, 0, 5⟩ })

/-- A slice ends: recorded; its failed units stand failed; a fatal result is remembered, and ends BIST unless it is an overrun, after
which BIST moves on (R277). -/
def State.sliceEnd (s : State) (i : Fin 8) (rest : List (Fin 8)) (r : BistResult) : State :=
  let fatal := s.bistIsFatal i r
  let detail : Byte := BitVec.ofNat 8 (i.val + 1) ||| (if overran r i then 0x80 else 0)
  let stop := fatal && !overran r i && !s.rst.bistManual
  let s1 := ((s.recordSlice i r).when (!fatal) (·.failUnits i r)).destroy i
  let s2 := s1.onRst (fun x => { x with
    bistTodo := if stop then [] else rest
    bistFatal := if fatal && x.bistFatal.isNone then some detail else x.bistFatal })
  if s2.rst.bistTodo.isEmpty then ((s2.dropGrant rqBist).onCres (fun c => { c with lbist := false })).bistOver
  else (s2.dropGrant rqBist).bistAsk

/-- The running slice ends; a slice runs under its class 4 grant only (R277), and waits for it. -/
def execBistSliceEnd (r : BistResult) (s : State) : Out :=
  match s.rst.bistTodo with
  | [] => .next s
  | i :: rest =>
    if s.holds rqBist then
      .next ((s.advance (s.metr.lineTime + ms (min r.ms.toNat (bistBudget i)))).sliceEnd i rest r)
    else .next s.bistAsk

/-- GO in BIST_REQ: in FACTORY, DEVELOP and RETIRED while DISARMED (R280). -/
def State.bistReq (s : State) : State :=
  let todo := (List.finRange 8).filter (fun i => s.rst.bistSlices.getLsbD i.val)
  if (s.rst.lc == .factory || s.rst.lc == .develop || s.rst.lc == .retired) && s.gov.state == .disarmed then
    if todo.isEmpty then s.ownReset .l1 else s.startBist todo true
  else s

def execBistReqGo (s : State) : Out := .next (s.stewWrite blkRstc).bistReq

/-! ## The warm check (R263) -/

/-- The native words of a cluster's ITCM as reads deliver them. -/
def State.itcmWords (s : State) (c : Cl) : List (Native × Bool) :=
  (List.range (tcmBytes c / 16)).map (fun i => s.peekWord ⟨.itcm c, i⟩)

/-- The accounting of those reads (R91). -/
def State.noteItcm (s : State) (v : Vc) : State :=
  s.each (List.range (tcmBytes (vcl v) / 16)) (fun i s => s.noteRead ⟨.itcm (vcl v), i⟩ (initOf (vcl v)))

/-- The CRC-32C of a Voice's ITCM. -/
def State.itcmCrc (s : State) (v : Vc) : Word := crc32cWords ((s.itcmWords (vcl v)).map (·.1))

/-- A Voice passes the warm check: sealed, and its ITCM has the sealed CRC; a word that reads poisoned fails it (log 87). -/
def State.warmOk (s : State) (v : Vc) : Bool :=
  s.rst.sealed.getLsbD v.val && s.itcmCrc v == s.rst.warmCrc[v] && (s.itcmWords (vcl v)).all (fun w => !w.2)

/-- The unfinished ranges of a Voice become REHOME work of the restarted Voice (R263). -/
def State.rehomeOwn (s : State) (v : Vc) : State :=
  let mine := s.unfinished.filter (fun r => s.ownerOf r == v)
  if mine.isEmpty then s
  else
    let m := mine.foldl (fun (a : BitVec 64) r => a ||| oneHot 64 r.toNat) 0
    (s.onUnis (fun u => { u with rehome := upd u.rehome v (fun x => x ||| m), rehomeL2 := u.rehomeL2 ||| m })).postEvent (vcl v) 11 4

/-- A Voice's core starts at 0x0700_0000 (R128). -/
def State.startVoice (s : State) (v : Vc) : State :=
  s.withWdogs (fun s => s.onCore (vcl v) (fun _ => { Core.reset with inReset := false }))

/-- The warm check of every Voice after an L2. -/
def State.warmVoice (s : State) (v : Vc) : State :=
  if s.unis.tacet.getLsbD v.val || s.unis.notLive.getLsbD v.val then s
  else if s.warmOk v then ((s.noteItcm v).startVoice v).rehomeOwn v
  else if s.rst.sealed.getLsbD v.val || s.unis.alive.getLsbD v.val then (s.noteItcm v).voiceOut v .request 0 0
  else s

/-- A byte of a cluster's own TCMs by local offset, the ITCM first (R78), as a read delivers it. -/
def State.tcmByteAt (s : State) (c : Cl) (a : Nat) : Native × Bool :=
  if a < tcmBytes c then s.peekBytes (.itcm c) a 1 else s.peekBytes (.dtcm c) (a - tcmBytes c) 1

/-- Bytes of a cluster's own TCMs from a local offset; none when a word of them reads poisoned. -/
def State.tcmBytesAt (s : State) (c : Cl) (off n : Nat) : Option (List Byte) :=
  if (List.range n).any (fun i => (s.tcmByteAt c (off + i)).2) then none
  else some ((List.range n).map (fun i => (s.tcmByteAt c (off + i)).1.setWidth 8))

/-- The retained Drunor image still has the digest recorded at its authentication (log 87). -/
def State.drunorKept (s : State) : Bool :=
  match s.rst.digest with
  | some (d, load, len) => (s.tcmBytesAt stw load len).any (fun bs => sha256 bs == d)
  | none => false

/-! ## The release order (Table 11-3) -/

/-- The sequence moves to its next step. -/
def State.seqTo (s : State) (n : Nat) : State := s.onRst (fun r => { r with seq := r.seq.map (fun q => { q with step := n }) })

/-- The sequence ends. -/
def State.seqDone (s : State) : State := s.onRst (fun r => { r with seq := none, busy := false })

/-- Step 3: the Line domain is released; the trip outputs start unless the latch is set; RSTOUT_N goes high. -/
def State.releaseLine (s : State) (l : Level) : State :=
  let s1 := s.onGov (fun g => g.released (s.aon.latch || s.rst.coda))
  (s1.onRst (fun r => { r with
    rstout := true, bootWdog := if l = .l1 then r.opt.bootsel != 3 else r.bootWdog })).fixZones

/-- Step 3 waits until every rail has been inside its SUPPLY window for 100 us (R354). -/
def State.lineStep (s : State) (l : Level) (next : Nat) : State :=
  match s.aon.railOkSince with
  | some t => ((s.advance (t + us 100)).releaseLine l).seqTo next
  | none => s

/-- The Steward leaves reset. -/
def State.startSteward (s : State) : State := s.withWdogs (fun s => s.onCore stw (fun _ => { Core.reset with inReset := false }))

/-- Step 7: the Steward boots from ROM, in Coda where the options or a third failed start say so; after an L2 it starts Drunor warm on a
match, and in Coda the ROM. -/
def State.bootSteward (s : State) (l : Level) : State :=
  let s1 := s.startSteward
  match l with
  | .l2 =>
    if s1.rst.coda then s1.onUnis (fun u => { u with stwAway := none })
    else if s1.drunorKept then
      ((s1.onRst (fun r => { r with drunor := true })).onUnis (fun u => { u with stwAway := none })).storeInterrupted
    else s1
  | _ => match s1.codaOption with
    | some c => s1.enterCoda c
    | none => match s1.rst.codaDue with
      | some c => s1.enterCoda c
      | none => s1

/-- A Voice that waits for its image: in RETAIN, filled at its first wake, its grant given back (R241). -/
def State.parkVoice (s : State) (v : Vc) : State :=
  ((s.when (s.powerOf (rqVoice v) == .off) (·.initBlock (rqVoice v))).setPower (rqVoice v) .retain).dropGrant (rqVoice v)

/-- Step 8: Voices wait in RETAIN for their image, or restart under the warm check; each leaves OFF under a grant (R241). -/
def State.releaseVoices (s : State) (l : Level) : State :=
  match l with
  | .l2 => if s.rst.coda then s else s.each voices (fun v s => s.warmVoice v)
  | _ => s.each voices (fun v s => s.parkVoice v)

/-- Step 8 under its grants. -/
def State.voiceStep (s : State) (l : Level) : State :=
  let rs := (voices.map rqVoice).filter (fun r => l == .l2 || s.powerOf r == .off)
  if rs.all s.clockable then (s.releaseVoices l).seqDone
  else s.each (rs.filter (fun r => !s.clockable r)) (fun r s => s.askGrant r)

/-- The full probe of all 1,024 bits of a Voice passes on both comparators (R126). -/
def State.fullProbe (s : State) (v : Vc) : Bool :=
  (List.range 1024).all (fun i => !probeDeviates s.unis.una[v] (BitVec.ofNat 10 i) && !probeDeviates s.unis.unb[v] (BitVec.ofNat 10 i))

/-- The release of one target: a Voice restarts after its warm check and runs its full probe (R126); a Steward is back in the ROM
(R263, R264). In Coda no Voice starts (R290). -/
def State.releaseTarget (s : State) (target : Byte) : State :=
  let n := target.toNat
  if h : n < 4 then
    let v : Vc := ⟨n, h⟩
    let s1 := s.onUnis (fun u => { u with
      outReset := putBit u.outReset n true, outProbed := putBit u.outProbed n (s.fullProbe v) })
    if s1.warmOk v && !s1.rst.coda then (s1.noteItcm v).startVoice v else s1
  else if n = 4 then s.startSteward
  else s

/-- The calibrations lie in the ranges of Table 11-12; the RC's is skipped in RC-only mode (R273, R281). -/
def calibrated (c : Calibration) (rcOnly : Bool) : Bool :=
  decide (c.adcOffset.natAbs ≤ 8) && decide (c.adcGain.natAbs ≤ 200) &&
    c.sensors.all (fun a => c.sensors.all (fun b => decide ((a - b).natAbs ≤ 300))) &&
    decide (9000 ≤ c.termination) && decide (c.termination ≤ 11000) && (rcOnly || decide (c.rc.natAbs ≤ 2500))

/-- Step 6 (R281, R282): calibration, a failure of which is a fatal S1; then every memory is filled and every L1 invalidated. -/
def State.memoryStep (s : State) (cal : Calibration) : State :=
  if calibrated cal s.rcOnly then (s.zeroAll.onChord (fun h => { h with l1d := Vector.replicate 5 [] })).seqTo 7
  else (s.onRst (fun r => { r with seq := none, bootRec := { r.bootRec with bist := putField r.bootRec.bist 0 (2 : BitVec 2) } })).failedStart
    0x02 1 (some .l0)

/-- The next step of the running sequence. -/
def State.releaseStep (s : State) (q : RstSeq) (cal : Calibration) : State :=
  match q.step with
  | 3 => s.lineStep q.level (if q.level = .l0 then 4 else 5)
  | 4 => if s.rst.bistTodo.isEmpty then s.startBist (List.finRange 8) false else s
  | 5 => s.underGrants (slices.map rqSlice ++ [rqStw]) (·.seqTo (if q.level = .l2 then 7 else 6))
  | 6 => s.memoryStep cal
  | 7 =>
    let s1 := s.bootSteward q.level
    if s1.rst.coda && q.level != .l2 then s1 else s1.seqTo 8
  | 8 => s.voiceStep q.level
  | 9 => (s.releaseTarget q.target).seqDone
  | 10 => s.underGrants [rqStw] (fun s => s.startSteward.seqDone)
  | _ => s

def execResetRelease (cal : Calibration) (s : State) : Out :=
  match s.rst.seq with
  | some q => .next (s.releaseStep q cal)
  | none => .next s

/-! ## Pins during reset (R266, R271, Table 11-5) -/

/-- RSTOUT_N: low until step 3 ends, or the pulses of the option code: k high pulses of 2 ms, 2 ms apart, in every 100 ms (R271; the
phase of the pulses is a choice, log 91). -/
def State.rstoutHigh (s : State) : Bool :=
  if s.rst.optionHold then
    let t := s.metr.lineTime.toNat / Config.ticksPerMs % 100
    decide (t < 4 * s.rst.bootRec.optionCode.toNat) && decide (t % 4 < 2)
  else s.rst.rstout

/-- FRST_N is low from L0 and L1 and at L2 until the Steward is released, and while the xSPI is reset (Tables 11-4, 11-5). -/
def State.frstHigh (s : State) : Bool :=
  !s.rst.optionHold && match s.rst.seq with
    | some q => match q.level with
      | .l0 | .l1 | .l2 => decide (8 ≤ q.step)
      | .l4 => q.target != 0x22
      | .l3 => true
    | none => true

/-- FCS_N is high at L0, L1 and L2 (Table 11-5), and whenever no flash transfer runs: each row holds whole transfers (log 71). -/
def State.fcsHigh (_ : State) : Bool := true

/-- What a transmit lane carries: no transitions, IDLE characters, or the engine's own sets. -/
inductive LaneLevel where
  | static | idle | sets
deriving DecidableEq, Repr

/-- MIRL_TXP/TXN: static at L0 and L1 and while the engine is off, IDLE at L2 until the engine is released (Table 11-5). -/
def State.mirlLane (s : State) : LaneLevel :=
  match s.rst.seq with
  | some q => match q.level with
    | .l0 | .l1 => .static
    | .l2 => if q.step < 8 then .idle else if s.mirl.enable then .sets else .static
    | _ => if s.mirl.enable then .sets else .static
  | none => if s.mirl.enable then .sets else .static

/-- GPIO_0 to GPIO_7 that the device drives: after L0 they are inputs with a weak pull-down, L1 and L2 hold that, and the spec gives
no register that drives one (Table 11-5; log 91). -/
def State.gpioDriven (_ : State) : Byte := 0

/-! ## Images (R283 to R286) -/

/-- Bytes of a source of images. -/
def State.imageBytes (s : State) (src : ImageSource) : List Byte :=
  match src with | .slotA => s.mem.flashA | .slotB => s.mem.flashB | .download => s.mirl.download

/-- A little-endian field of an image, at a byte offset. -/
def imgField (w : Nat) (bs : List Byte) (off n : Nat) : BitVec w := ofBytes w ((bs.drop off).take n)

/-- A big-endian number of an image: keys and signatures (log 9). -/
def imgBig (bs : List Byte) (off n : Nat) : BitVec 256 := ofBytes 256 (((bs.drop off).take n).reverse)

/-- LENGTH of an image. -/
def imgLength (bs : List Byte) : Nat := (imgField 32 bs 0x0C 4).toNat

/-- SEQ of an image. -/
def imgSeq (bs : List Byte) : Word := imgField 32 bs 0x08 4

/-- LOAD of an image. -/
def imgLoad (bs : List Byte) : Nat := (imgField 32 bs 0x10 4).toNat

/-- The payload of an image. -/
def imgPayload (bs : List Byte) : List Byte := (bs.drop 0xC0).take (imgLength bs)

/-- Check 1: MAGIC, FORMAT and TYPE. -/
def headerOk (bs : List Byte) (app : Bool) : Bool :=
  decide (0xC0 ≤ bs.length) && (bs.take 4 == [0x5A, 0x53, 0x49, 0x4D]) && imgField 16 bs 4 2 == 1 &&
    imgField 16 bs 6 2 == (if app then 2 else 1)

/-- LOAD and LENGTH fit the target: one of the Steward's TCMs for Drunor, a Voice's ITCM for an application. -/
def loadFits (app : Bool) (load len : Nat) : Bool :=
  len % 16 == 0 &&
    (if app then decide (load + len ≤ 0x40000)
     else decide (load + len ≤ 0x20000) || (decide (0x20000 ≤ load) && decide (load + len ≤ 0x40000)))

/-- The checks of R284 in order: the detail code of the first that fails, or none. -/
def State.imageFailure (s : State) (bs : List Byte) (app : Bool) : Option Byte :=
  let key : BitVec 2 := imgField 2 bs 0x15 1
  let pub := (bs.drop 0x20).take 64
  let f := s.rst.fuses
  let svn : Byte := imgField 8 bs 0x14 1
  let payload := imgPayload bs
  if !headerOk bs app then some 1
  else if sha256 pub != (if app then f.customerKey else Config.romKeyHash key) then some 2
  else if !app && (f.revoked.getLsbD key.toNat || decide (3 < (imgField 8 bs 0x15 1).toNat)) then some 3
  else if svn < (if app then f.minSvnApp else f.minSvnDrunor) then some 4
  else if !loadFits app (imgLoad bs) (imgLength bs) then some 5
  else if payload.length != imgLength bs || sha256 payload != imgBig bs 0x60 32 then some 6
  else if !ecdsaVerify (sha256 (bs.take 0x80)) (imgBig bs 0x20 32) (imgBig bs 0x40 32) (imgBig bs 0x80 32) (imgBig bs 0xA0 32)
    then some 7
  else none

/-- The application image that follows a Drunor image: at the first 4 KiB boundary after its payload (R285). -/
def appPart (bs : List Byte) : List Byte := bs.drop ((0xC0 + imgLength bs + 0xFFF) / 0x1000 * 0x1000)

/-- An application image is present where MAGIC stands (R285; log 89). -/
def appPresent (bs : List Byte) : Bool := bs.take 4 == [0x5A, 0x53, 0x49, 0x4D]

/-- Bytes written into a cluster's own TCMs from a local offset, word by word, as stores of the Steward (R84 to R86). -/
def State.loadTcm (s : State) (c : Cl) (off : Nat) (bs : List Byte) : State :=
  let words := wordsOfBytes bs.length bs
  s.each ((List.range words.length).zip words) (fun p s =>
    let a := off + 16 * p.1
    let (m, o) := if a < tcmBytes c then (MemName.itcm c, a) else (MemName.dtcm c, a - tcmBytes c)
    (s.storeParts .write (Sys2Proof.Machine.storeParts m o 16 p.2) false .steward).1)

/-- An accepted Drunor image: in the Steward's TCM, its digest in the always-on domain. It runs at once at a start; after a
Steward L3 its return is STEWARD_RETURN. -/
def State.acceptDrunor (s : State) (src : ImageSource) (bs : List Byte) : State :=
  let d := imgBig bs 0x60 32
  let s1 := s.loadTcm stw (imgLoad bs) (imgPayload bs)
  let s2 := s1.onRst (fun r => { r with
    digest := some (d, imgLoad bs, imgLength bs), drunorVersion := imgField 64 bs 0x18 8, activeSeq := imgSeq bs
    rejected := [], drunorSrc := some src, drunor := s.unis.stwAway.isNone
    bootRec := { r.bootRec with
      slotB := src == .slotB, svn := imgField 8 bs 0x14 1, digest := ofBytes 128 ((digestBytes d).take 16) } })
  s2.onRst (fun r => { r with bootRec := { r.bootRec with
    drunorVer := place 16 8 ((field (imgField 64 bs 0x18 8) 0 16 : BitVec 16).setWidth 8 : Byte) |||
      place 16 0 ((field (imgField 64 bs 0x18 8) 16 16 : BitVec 16).setWidth 8 : Byte) } })

/-- A Voice that BIST left eligible: live, and not out. -/
def State.eligible (s : State) (v : Vc) : Bool := !s.unis.notLive.getLsbD v.val && !s.unis.tacet.getLsbD v.val

/-- An accepted application image in the ITCM of every eligible Voice (R286). -/
def State.acceptApp (s : State) (bs : List Byte) : State :=
  let s1 := s.each (voices.filter s.eligible) (fun v s => s.loadTcm (vcl v) (imgLoad bs) (imgPayload bs))
  s1.onRst (fun r => { r with
    appVersion := imgField 64 bs 0x18 8, bootRec := { r.bootRec with appSvn := imgField 8 bs 0x14 1 } })

/-- A slot whose header is valid. -/
def State.slotValid (s : State) (src : ImageSource) : Bool := headerOk (s.imageBytes src) false

/-- The slots in the order in which the ROM tries them: valid before invalid, the higher SEQ first (R285). -/
def State.slotOrder (s : State) : List ImageSource :=
  let a := s.slotValid .slotA
  let b := s.slotValid .slotB
  if b && (!a || decide (imgSeq s.mem.flashA < imgSeq s.mem.flashB)) then [.slotB, .slotA] else [.slotA, .slotB]

/-- The sources of a start, in order (R283). -/
def State.bootOrder (s : State) : List ImageSource :=
  match s.rst.opt.bootsel.toNat with | 0 => s.slotOrder | 1 | 2 => [.download] | _ => []

/-- The Steward runs the ROM and awaits an image: no Drunor runs, and the device is not in Coda. -/
def State.inRom (s : State) : Bool := !s.core[stw].inReset && !s.rst.drunor && !s.rst.coda && !s.rst.failed

/-- The ROM completes the checks of a Drunor image: accepted, or the next source; no source left is a failed start. -/
def State.checkDrunor (s : State) (src : ImageSource) : State :=
  match s.bootOrder.find? (fun x => !s.rst.rejected.contains x) with
  | some x =>
    if x != src then s
    else match s.imageFailure (s.imageBytes src) false with
    | none => s.acceptDrunor src (s.imageBytes src)
    | some d =>
      let s1 := s.onRst (fun r => { r with rejected := r.rejected ++ [src] })
      if s.bootOrder.all (fun y => s1.rst.rejected.contains y) then
        (s1.onRst (fun r => { r with seq := none })).failedStart 0x03 d (some .l0)
      else s1
  | none => s

/-- The ROM completes the checks of the application image that follows the accepted Drunor image, in the slot that gave it (R285). A
rejected one is recorded and is not a failed start (R286); where none is present there is nothing to record. -/
def State.checkApp (s : State) (src : ImageSource) : State :=
  let bs := appPart (s.imageBytes src)
  let refused := s.rst.lc == .blank || s.rst.lc == .retired
  if !appPresent bs then s
  else match (if refused then some 1 else s.imageFailure bs true) with
  | none => s.acceptApp bs
  | some d => s.onRst (fun r => { r with bootRec := { r.bootRec with
      reasons := (r.bootRec.reasons <<< 16) ||| place 48 0 (0x03 : Byte) ||| place 48 8 d } })

/-- An application image is written while its Voices' memories are powered: a Voice in RETAIN or OFF is woken first (R87). -/
def State.withVoices (s : State) (f : State → State) : State := s.underGrants ((voices.filter s.eligible).map rqVoice) f

def execBootImageCheck (src : ImageSource) (app : Bool) (s : State) : Out :=
  if app then
    if s.rst.drunor && !s.hmbx.ready && s.rst.drunorSrc == some src then .next (s.withVoices (·.checkApp src)) else .next s
  else if s.inRom then .next (s.checkDrunor src) else .next s

/-- The boot watchdog expires: a failed start, and an L1 (R287). -/
def execBootWatchdog (s : State) : Out :=
  if s.rst.bootWdog then
    .next ((s.onRst (fun r => { r with bootWdog := false })).failedStart 0x04 (if s.rst.drunor then 2 else 1) (some .l1))
  else .next s

/-! ## READY (R288) -/

/-- READY can be set; in Coda once the ROM firmware has started (R288). -/
def State.readyMet (s : State) : Bool :=
  if s.rst.coda then s.rst.seq.isNone && !s.core[stw].inReset
  else s.rst.drunor && (s.gov.state == .disarmed || (s.gov.state == .fermata && s.aon.latch)) && s.cres.season == .winter

/-- The READY event (Table 12-11). -/
def State.readyWords (s : State) : List Native :=
  [place 128 0 (0x01 : Byte) ||| place 128 32 s.rst.lastLevel ||| place 128 36 s.rst.lastSrc |||
    place 128 40 (bit s.rst.coda) ||| place 128 96 s.lineMs]

def State.readyEvent (s : State) : State := s.pushEvent s.readyWords

/-- READY: a start that reaches it outside Coda clears the attempt counter (R289); WINTER then holds the Steward and Chord in
RETAIN (Table 10-3). -/
def execReady (s : State) : Out :=
  if !s.readyMet || s.hmbx.ready then .next s
  else
    let s1 := s.onHmbx (fun h => { h with ready := true, coda := s.rst.coda, bootWait := false, quiet := false })
    if s.rst.coda then .next (s1.updateRecord.readyEvent)
    else
      let s2 := (s1.onRst (fun r => { r with attempts := 0, failed := false, bootWdog := false })).updateRecord.readyEvent
      let sleep := fun (r : Fin 29) (s : State) => if s.powerOf r = .off then s else (s.setPower r .retain).dropGrant r
      .next (s2.withWdogs (fun s => (slices.map rqSlice ++ [rqStw]).foldl (fun s r => sleep r s) s))

/-! ## ITCM_SEAL (R286) -/

/-- A Voice's image sealed: its ITCM's CRC recorded. A Voice that waited for its image in reset then starts, but in Coda (R290). -/
def State.sealVoice (s : State) (v : Vc) : State :=
  let s1 := (s.noteItcm v).onRst (fun r => { r with
    sealed := r.sealed ||| oneHot 4 v.val, warmCrc := upd r.warmCrc v (fun _ => s.itcmCrc v)
    bootRec := { r.bootRec with app := true } })
  if s.core[vcl v].inReset && !s.isolated (vcl v) && !s.rst.coda then
    (s1.startVoice v).when (s1.powerOf (rqVoice v) != .run && s1.powerOf (rqVoice v) != .idle) (·.askGrant (rqVoice v))
  else s1

def State.itcmSeal (s : State) (mask : BitVec 4) : State :=
  s.each (voices.filter (fun v => mask.getLsbD v.val)) (fun v s => s.sealVoice v)

def execItcmSeal (mask : BitVec 4) (s : State) : Out := .next ((s.stewWrite blkRstc).itcmSeal mask)

end Sys2Proof.Machine
end

