-- ==== Sys2Proof/Machine/Hub.lean ====
section
/-!
DEFINITION. The Fault Hub (09): a report's class with its floor and escalation (R223 to R227), the fault log (R228, Table 09-8),
the FAULT event (R317) and the reaction classes (Table 09-6).
-/
namespace Sys2Proof.Machine

/-! ## Scopes (R224, R225; log 26) -/

/-- The Voice a source names, if it names one. -/
def voiceScope (src : FaultSource) (inst : BitVec 4) : Option Vc :=
  match src with
  | .lockstep | .unisonSplit | .unisonRail | .unisonProbe | .voiceWdog | .corePoison
  | .cmdPoison | .cmdFormat | .cmdOrigin | .cmdOverflow | .cmdState | .cmdLockout | .cmdClamp | .cmdRate =>
    if h : inst.toNat < 4 then some ⟨inst.toNat, h⟩ else none
  | _ => none

/-- The trunk of an instance. -/
def instTrunk (inst : BitVec 4) : TrkId := ⟨inst.toNat, inst.isLt⟩

/-- A source per trunk. -/
def trunkSource : FaultSource → Bool
  | .trkLinkDown | .trkLinkLost | .discFail | .discMismatch | .concLost | .seqConflict | .misroute | .sentinelTrip
  | .trkEngine => true
  | _ => false

/-- A source that the Governor raises for a command word. -/
def commandSource : FaultSource → Bool
  | .cmdPoison | .cmdFormat | .cmdOrigin | .cmdOverflow | .cmdState | .cmdLockout | .cmdClamp | .cmdRate => true
  | _ => false

/-- The trunks of a Voice's ranges. -/
def State.trunksOf (s : State) (v : Vc) : List TrkId :=
  trunks.filter (fun t => ranges.any (fun r =>
    let e := s.rangeEntry r
    rangeValid e && s.ownerOf r == v && rangeTrunk e == t))

/-- The trunks a C4 reaction trips: the source's trunk, a blocked word's trunk (from its channel id), or those of a Voice's
ranges. -/
def State.trunkScope (s : State) (src : FaultSource) (inst : BitVec 4) (detail : Word) : List TrkId :=
  if trunkSource src || src = .frameOverrun then [instTrunk inst]
  else if commandSource src then [⟨(field detail 13 4).toNat, (field detail 13 4).isLt⟩]
  else match voiceScope src inst with
  | some v => s.trunksOf v
  | none => []

/-- The block with an isolation wrapper that a C2 reaction isolates. -/
inductive Wrapped where
  | engine (t : TrkId) | cluster (c : Cl) | mirror
deriving DecidableEq, Repr

def wrapperScope (src : FaultSource) (inst : BitVec 4) : Option Wrapped :=
  if trunkSource src then some (.engine (instTrunk inst))
  else match src with
  | .lockstep | .unisonSplit | .unisonRail | .unisonProbe | .voiceWdog | .corePoison =>
    if h : inst.toNat < 5 then some (.cluster ⟨inst.toNat, h⟩) else none
  | .stwVote | .stwVoter | .stwDual | .stwDegraded | .stwWdog | .stwLost => some (.cluster stw)
  | .pairLink | .pairTime | .roleConflict => some .mirror
  | _ => none

/-- A class whose scope the source lacks acts as C5 (R224). -/
def State.resolve (s : State) (k : Klass) (src : FaultSource) (inst : BitVec 4) (detail : Word) : Klass :=
  match k with
  | .c2 => if (wrapperScope src inst).isSome then .c2 else .c5
  | .c3 => if (voiceScope src inst).isSome then .c3 else .c5
  | .c4 => if (s.trunkScope src inst detail).isEmpty then .c5 else .c4
  | k => k

/-! ## The class applied (R223, R226, R227) -/

/-- The higher of two classes. -/
def Klass.max (a b : Klass) : Klass := if a.toNat ≤ b.toNat then b else a

/-- EFFECTIVE of FH_CLASS_n: the configured class raised to the fused floor (R223, R226). -/
def State.effective (s : State) (src : FaultSource) : Klass :=
  let n := (sourceRow src).id
  (Klass.fromNat (getN s.hub.cls n 0).toNat).max (Klass.fromNat (getN s.rst.fuses.floor n 0).toNat)

/-- The source instance a report counts for: for FRAME_OVERRUN its range, which DETAIL names (R225, R227). -/
def reportKey (src : FaultSource) (inst : BitVec 4) (detail : Word) : Report :=
  if src = .frameOverrun then ⟨src, 0, detail⟩ else ⟨src, if perInstance src then inst else 0, 0⟩

/-- ESC_N as it acts: values below 2 act as 2 (Table 09-10). -/
def Fhub.limit (h : Fhub) : Nat := if h.escN.toNat < 2 then 2 else h.escN.toNat

/-- The times within the window that ends now. -/
def State.inWindow (s : State) (t : Time) : Bool :=
  decide (s.metr.lineTime.toNat - t.toNat < s.hub.escWin.toNat * Config.ticksPerMs)

/-- Reports of an instance within the window, this one included. -/
def State.recent (s : State) (key : Report) : Nat :=
  (s.hub.times.filter (fun p => p.1 == key && s.inWindow p.2)).length + 1

/-- The class applied to a report, and whether R227 raised it. -/
def State.applied (s : State) (src : FaultSource) (inst : BitVec 4) (detail : Word) : Klass × Bool :=
  let k := s.effective src
  match (sourceRow src).esc with
  | some e => if s.hub.limit ≤ s.recent (reportKey src inst detail) ∧ k.toNat < e.toNat then (e, true) else (k, false)
  | none => (k, false)

/-! ## The log (R228, Table 09-8) -/

def logEntry (src : FaultSource) (esc : Bool) (k : Klass) (inst : BitVec 4) (detail : Word) (seq : BitVec 16) (t : Time) : Native :=
  place 128 0 (BitVec.ofNat 6 (sourceRow src).id) ||| place 128 6 (bit esc) ||| place 128 8 (BitVec.ofNat 3 k.toNat) |||
    place 128 12 inst ||| place 128 16 detail ||| place 128 48 seq ||| place 128 64 t

/-- CLASS of the entry at an index. -/
def Fhub.classAt (h : Fhub) (i : BitVec 6) : Nat := (field (getN h.log i.toNat 0) 8 3).toNat

/-- The index a full log gives up: the oldest of class C0 or C1, else the oldest of all; and whether it is the latter. -/
def Fhub.victim (h : Fhub) : BitVec 6 × Bool :=
  match h.order.find? (fun i => h.classAt i ≤ 1) with
  | some i => (i, false)
  | none => (h.order.head?.getD h.head, true)

/-- The log with one more entry; HEAD names the index of the next. -/
def Fhub.append (h : Fhub) (e : Native) : Fhub :=
  let i := if h.order.length < 64 then h.head else h.victim.1
  let h1 := { h with log := updN h.log i.toNat (fun _ => e), order := h.order.filter (· != i) ++ [i] }
  { h1 with head := if h1.order.length < 64 then i + 1 else h1.victim.1 }

/-- A report written into the log. -/
def State.logFault (s : State) (src : FaultSource) (esc : Bool) (k : Klass) (inst : BitVec 4) (detail : Word) : State :=
  let e := logEntry src esc k inst detail s.hub.seq s.metr.lineTime
  let drops := decide (64 ≤ s.hub.order.length) && s.hub.victim.2
  let key := reportKey src inst detail
  let s1 := s.onHub (fun h => { h.append e with
    seq := h.seq + 1
    maxClass := if h.maxClass.toNat < k.toNat then BitVec.ofNat 3 k.toNat else h.maxClass
    times := h.times.filter (fun p => s.inWindow p.2) ++ [(key, s.metr.lineTime)] })
  s1.when drops (·.cntOverwrite)

/-! ## Reactions (Table 09-6) -/

/-- The FAULT event (R317, Table 12-11). -/
def State.faultEvent (s : State) (src : FaultSource) (esc : Bool) (k : Klass) (inst : BitVec 4) (detail : Word)
    (seq : BitVec 16) : State :=
  s.pushEvent [place 128 0 (0x02 : Byte) ||| place 128 32 (BitVec.ofNat 6 (sourceRow src).id) ||| place 128 38 (bit esc) |||
    place 128 40 (BitVec.ofNat 3 k.toNat) ||| place 128 44 inst ||| place 128 48 detail ||| place 128 80 seq |||
    place 128 96 s.lineMs]

/-- CAUSE of a Voice that a fault takes out. -/
def outCauseOf : FaultSource → OutCause
  | .lockstep => .lockstep | .unisonSplit => .split | .unisonRail => .rail | .unisonProbe => .probe
  | .voiceWdog => .watchdog | _ => .other

/-- The Mirror engine isolated: the link and the pair are down. -/
def State.mirrorTacet (s : State) : State :=
  s.onMirl (fun m => { m with enable := false, linkUp := false, peer := false, pair := .down })

/-- The level and source of a C6 reaction: Table 09-7's level or L1, deepened by the reach of source 7 (R224, R258). -/
def State.c6 (s : State) (src : FaultSource) : State :=
  let l : Level := match src with
    | .stwVote | .stwVoter | .stwDual | .stwWdog => .l3
    | _ => .l1
  let l := match s.reach 7 with | some r => l.deeper r | none => l
  let id : Fin 10 := match src with | .stwWdog => 5 | .voiceWdog => 6 | _ => 7
  s.requestReset id l 0x04 false

/-- The Voice of a Voice source goes out; its plan is applied at PLAN_APPLY (R121). -/
def State.c3 (s : State) (src : FaultSource) (inst : BitVec 4) : State :=
  match voiceScope src inst with
  | some v => (s.voiceOut v (outCauseOf src) 0 0).when (src == .unisonProbe && !s.unis.tacet.getLsbD v.val) (·.evUnis .probeFail)
  | none => s

/-- The wrapped block of a C2 reaction in TACET. -/
def State.c2 (s : State) (src : FaultSource) (inst : BitVec 4) : State :=
  match wrapperScope src inst with
  | some (.engine t) => s.engineTacet t
  | some (.cluster c) =>
    match voiceOf c with
    | some v => s.voiceOut v (outCauseOf src) 0 0
    | none => (s.onUnis (fun u => { u with tacet := putBit u.tacet c.val true })).killAgent c
  | some .mirror => s.mirrorTacet
  | none => s

/-- The action of a class beyond C1. -/
def State.react (s : State) (k : Klass) (src : FaultSource) (inst : BitVec 4) (detail : Word) : State :=
  match k with
  | .c0 | .c1 => s
  | .c2 => s.c2 src inst
  | .c3 => s.c3 src inst
  | .c4 => s.each (s.trunkScope src inst detail) (fun t s => s.zoneTrip t)
  | .c5 => s.fermata
  | .c6 => s.c6 src

/-- What a source's report does whatever its class: TRK_ENGINE isolates the engine (R70); a Voice watchdog whose reach is fused
requests that reset (R257, R258). -/
def State.always (s : State) (src : FaultSource) (inst : BitVec 4) : State :=
  match src with
  | .trkEngine => s.engineTacet (instTrunk inst)
  | .voiceWdog => match s.reach 6 with | some l => s.requestReset 6 l 0x04 false | none => s
  | _ => s

/-- A report applied (R223): logged, from C1 on with the Steward interrupt and the FAULT event, then the class's action. -/
def State.report (s : State) (src : FaultSource) (inst : BitVec 4) (detail : Word) : State :=
  let (k0, esc) := s.applied src inst detail
  let k := s.resolve k0 src inst detail
  let seq := s.hub.seq
  let s1 := s.logFault src esc k inst detail
  let s2 := s1.when (k != .c0) (fun s => (s.stewIrq blkFhub).faultEvent src esc k inst detail seq)
  (s2.always src inst).react k src inst detail

/-- The report leaves those on their way to the hub. -/
def State.delivered (s : State) (src : FaultSource) (inst : BitVec 4) (detail : Word) : State :=
  s.onHub (fun h => { h with pending := h.pending.erase ⟨src, inst, detail⟩ })

/-- A fabric beat that a receiving port has decoded in error: corrected, or made poisoned (R93). It is counted and offered to its log
with MEM 0xFF; the address, the syndrome and the initiator are free values (R102; log 86). -/
def State.fabricBeat (s : State) (src : FaultSource) : State :=
  let v := Config.freeNative s.free
  let entry := fun kind => memLogEntry s (v.setWidth 24) 0xFF (field v 24 9) kind (field v 33 4)
  match src with
  | .fabricCe => ((s.cntMemc 4).offerCe (entry 5)).fresh
  | .fabricUe => ((s.cntMemc 5).addUe (entry 6)).fresh
  | _ => s

/-- The Fault Hub is in reset: an L4 of it, or the Line domain before step 3 of Table 11-3 (R265). -/
def State.hubHeld (s : State) : Bool :=
  match s.rst.seq with
  | some q => match q.level with
    | .l0 | .l1 => decide (q.step ≤ 3)
    | .l4 => q.target == 0x26
    | _ => false
  | none => false

/-- A source reports: one that reports of itself is a detection of its own, one that the device has detected already (or that INJ_GO
makes report) is delivered. While the Fault Hub is in reset the source holds its report (R265). -/
def execFaultReport (src : FaultSource) (inst : BitVec 4) (detail : Word) (s : State) : Out :=
  let known := s.hub.pending.contains ⟨src, inst, detail⟩
  let s1 := s.when (!known) (·.fabricBeat src)
  if s.hubHeld then .next (s1.when (!known) (·.detect src inst.toNat detail))
  else .next ((s1.delivered src inst detail).report src inst detail)

/-- LOG_CLR (R228, Table 09-10). -/
def State.logClr (s : State) : State :=
  s.onHub (fun h => { h with head := 0, log := Vector.replicate 64 0, order := [], maxClass := 0 })

def execLogClr (s : State) : Out := .next (s.stewWrite blkFhub).logClr

/-- INJ_GO: source INJ_SRC reports once; ignored in DEPLOYED unless DISARMED, and for an ID that names no source. -/
def State.fhInject (s : State) : State :=
  if s.rst.lc = .deployed && s.gov.state != .disarmed then s
  else match FaultSource.ofId s.hub.injSrc.toNat with
  | some src => s.detect src 0 0
  | none => s

def execFhInjGo (s : State) : Out := .next (s.stewWrite blkFhub).fhInject

end Sys2Proof.Machine
end

