-- ==== Sys2Proof/Machine/Mailbox.lean ====
section
/-!
DEFINITION. The host mailbox (12): the SPI transactions (R295 to R298), the 4 KiB window (Table 12-2), STATUS (R300), the
doorbell (R301), the checks of a command's header (R303, R304), the end of a command, and the event port (R316).
-/
namespace Sys2Proof.Machine

/-! ## STATUS and INFO (Tables 12-3, 12-7) -/

/-- The STATUS word. -/
def State.statusWord (s : State) : Native :=
  let h := s.hmbx
  place 128 0 (bit h.ready) ||| place 128 1 (bit h.busy) ||| place 128 2 (bit h.coda) |||
    place 128 3 (bit (s.gov.state == .fermata)) ||| place 128 4 (bit h.rejected) ||| place 128 5 (bit h.done) |||
    place 128 6 (bit (!h.fifo.isEmpty)) ||| place 128 7 (bit h.resetSeen) ||| place 128 8 (bit h.bootWait) |||
    place 128 16 h.rejectCount ||| place 128 24 (BitVec.ofNat 7 h.fifo.length) ||| place 128 32 h.lastTag |||
    place 128 48 h.lastStatus ||| place 128 64 h.busyTag ||| place 128 96 s.lineMs

/-- The number of a life-cycle state (R276). -/
def lcNumber : LifeCycle → BitVec 3
  | .blank => 0 | .factory => 1 | .develop => 2 | .deployed => 3 | .retired => 4

/-- The number of a role: 0 Solo, 1 A, 2 B. -/
def roleNumber : Role → BitVec 2
  | .solo => 0 | .a => 1 | .b => 2

/-- The ROM serves the mailbox: Coda, or a host download (R315). -/
def State.romSet (s : State) : Bool := s.rst.coda || s.hmbx.bootWait

/-- The GET_INFO response and the INFO block. -/
def State.infoWords (s : State) : List Native :=
  let o := s.rst.opt
  [place 128 0 (0x7716 : BitVec 16) ||| place 128 16 Config.deviceStep ||| place 128 32 (lcNumber s.rst.lc) |||
      place 128 36 (roleNumber o.role) ||| place 128 38 (bit o.trunks8) ||| place 128 39 (bit o.quad) |||
      place 128 40 (bit o.bench) ||| place 128 41 (if s.romSet then (1 : BitVec 3) else 3) ||| place 128 48 s.unis.alive |||
      place 128 52 s.rst.sealed ||| place 128 56 o.optrCode,
    place 128 0 s.rst.drunorVersion ||| place 128 64 s.rst.appVersion,
    place 128 0 s.rst.fuses.serial]

/-- The boot record's words (Table 11-15). -/
def State.bootWords (s : State) : List Native :=
  let b := s.rst.bootRec
  [place 128 0 b.format ||| place 128 8 b.attempts ||| place 128 12 b.codaCause ||| place 128 16 b.lc |||
      place 128 20 b.bootsel ||| place 128 22 b.clkmode ||| place 128 24 (bit b.strapRsvd) ||| place 128 25 b.optrCode |||
      place 128 32 b.optrAdc ||| place 128 44 b.lastLevel ||| place 128 48 b.lastSrc ||| place 128 64 b.time,
    place 128 0 b.bist ||| place 128 16 b.voiceFail ||| place 128 20 b.stwFail ||| place 128 24 b.trackerFail |||
      place 128 32 b.trunkFail ||| place 128 48 (bit b.mirlFail) ||| place 128 64 b.duration,
    place 128 0 b.reasons ||| place 128 48 b.optionCode ||| place 128 64 b.drunorVer ||| place 128 80 (bit b.slotB) |||
      place 128 81 (bit b.app) ||| place 128 88 b.svn ||| place 128 96 b.appSvn,
    b.digest]

/-- HIRQ_N is driven low (R318); high from a reset until READY (Table 11-5). -/
def State.hirqLow (s : State) : Bool :=
  !s.hmbx.quiet && (!s.hmbx.fifo.isEmpty || s.hmbx.resetSeen || (s.hmbx.done && s.hmbx.irqDone))

/-! ## Headers (R302, R303, Table 12-4) -/

/-- The response as it lies in the window: its header, then its data. -/
def Response.words (r : Response) : List Native :=
  let h : Native := place 128 0 r.tag ||| place 128 16 r.opcode ||| place 128 32 (BitVec.ofNat 16 (16 * r.data.length)) |||
    place 128 48 r.code ||| place 128 56 r.detail ||| place 128 64 r.duration
  let crc := crc32c (bytesOf 12 h ++ (r.data.map (bytesOf 16)).flatten)
  putField h 96 crc :: r.data

/-- Parameter word `i` of the command region. -/
def State.param (s : State) (i : Nat) : Native := getN s.hmbx.cmd (i + 1) 0

/-- The bytes of the parameters from a byte offset. -/
def State.paramBytes (s : State) (off n : Nat) : List Byte :=
  (((s.hmbx.cmd.toList.drop 1).map (bytesOf 16)).flatten.drop off).take n

/-- Bytes from BUSY's command header. -/
def cmdOf (w : Native) : CurCmd :=
  ⟨field w 0 16, field w 16 16, (field w 32 16 : BitVec 16).toNat, w.getLsbD 48, field w 96 32⟩

/-- The header CRC holds (R302). -/
def State.headerCrcOk (s : State) : Bool :=
  let w := s.hmbx.cmd[0]
  crc32c (bytesOf 12 w ++ s.paramBytes 0 (cmdOf w).length) == field w 96 32

/-- Opcodes of Table 12-6. -/
def opcodes : List Nat :=
  [0x01, 0x02, 0x10, 0x11, 0x12, 0x20, 0x21, 0x22, 0x23, 0x30, 0x31, 0x32, 0x40, 0x50, 0x60, 0x70, 0x80, 0x81, 0x82, 0x90,
   0xA0, 0xF0]

/-- Opcodes of the ROM set (R315). -/
def romOpcodes : List Nat := [0x01, 0x02, 0x80, 0x81, 0x82, 0xF0]

/-- The LENGTH a command takes (Table 12-6). -/
def lengthOk (op len : Nat) (w0 : Native) : Bool :=
  match op with
  | 0x10 | 0x81 => decide (16 ≤ len) && decide (len ≤ 240)
  | 0x11 => len == 32
  | 0x22 | 0x23 | 0x31 | 0x40 | 0x50 | 0x70 | 0x80 | 0x90 | 0xF0 => len == 16
  | 0x30 => len == 16 * (1 + (field w0 0 4 : BitVec 4).toNat) && decide (len ≤ 240)
  | _ => len == 0

/-- What the steps 1 to 4 of R303 say of the command in progress. -/
inductive Precheck where
  | execute | replay (r : Response) | status (code detail : Byte)
deriving DecidableEq, Repr

/-- Steps 1 to 4 of R303, with the opcode's selector fields of R313 and R315. -/
def State.precheck (s : State) : Precheck :=
  let c := cmdOf s.hmbx.cmd[0]
  let w0 := s.param 0
  let op := c.opcode.toNat
  let kind := (field w0 0 8 : Byte).toNat
  if !s.headerCrcOk then .status 0x01 0
  else match s.hmbx.stored.filter (fun x => x.2.tag == c.tag) with
  | some (crc, r) => if crc = c.crc then .replay r else .status 0x0C 0
  | none =>
    if !opcodes.contains op then .status 0x02 0
    else if s.romSet && (!romOpcodes.contains op || (op == 0xF0 && ((field w0 0 2 : BitVec 2) == 2 || w0.getLsbD 8))) then
      .status 0x0E 1
    else if !lengthOk op c.length w0 then .status 0x03 0
    else if op == 0x70 && (kind == 0 || decide (5 < kind)) then .status 0x04 0
    else .execute

/-- A response prepared for the command in progress. -/
def State.prepare (s : State) (code detail : Byte) (data : List Native) : State :=
  s.onHmbx (fun h => { h with prepared := match h.cur with
    | some c => some ⟨c.tag, c.opcode, code, detail, data, 0⟩
    | none => none })

/-- A response prepared for an opcode's command, if that is the one in progress. -/
def State.prepareFor (s : State) (op : BitVec 16) (code detail : Byte) (data : List Native) : State :=
  match s.hmbx.inProgress with
  | some c => if c.opcode = op then s.prepare code detail data else s
  | none => s

/-! ## The end of a command (R303 to R305) -/

/-- DURATION of a response: microseconds since the doorbell, saturating. -/
def State.duration (s : State) : Word :=
  BitVec.ofNat 32 (min ((s.metr.lineTime.toNat - s.hmbx.rangAt.toNat) / Config.ticksPerUs) 0xFFFFFFFF)

/-- The Voice return that the command in progress asked for is complete: ALIVE is set (R313). -/
def State.returnDone (s : State) : Bool :=
  match s.hmbx.inProgress with
  | some c => c.opcode == 0x70 && (field (s.param 0) 0 8 : Byte) == 2 && s.unis.alive.getLsbD (field (s.param 0) 8 2 : BitVec 2).toNat
  | none => false

/-- The response region after a response is written: its words, the rest as it was. -/
def writeRsp (old : Vector Native 64) (ws : List Native) : Vector Native 64 :=
  Vector.ofFn (fun i => ws[i.val]?.getD old[i])

/-- The command ends with a response: the region, LAST_TAG and LAST_STATUS are written, DONE is set and BUSY clears. -/
def State.endCommand (s : State) (r : Response) (keep : Bool) : State :=
  let irq := match s.hmbx.cur with | some c => c.irq | none => false
  let ran := s.hmbx.inProgress.isSome
  let crc := match s.hmbx.cur with | some c => c.crc | none => 0
  let s1 := s.onHmbx (fun h => { h with
    rsp := writeRsp h.rsp r.words, lastTag := h.busyTag, lastStatus := r.detail ++ r.code, done := true, busy := false
    cur := none, prepared := none, inProgress := none, irqDone := irq
    stored := if keep then h.stored else some (crc, r) })
  let s2 := s1.when irq (fun s => s.pushEvent [place 128 0 (0x07 : Byte) ||| place 128 32 r.tag |||
    place 128 48 (r.detail ++ r.code) ||| place 128 96 s.lineMs])
  let s3 := s2.when ran (fun s => s.journalAdd 1 (r.code ++ r.opcode))
  -- R313 kind 1: DONE comes before GO
  s3.when (ran && r.opcode == 0x70 && r.code == 0 && (field (s.param 0) 0 8 : Byte) == 1) State.bistReq

/-- Where Drunor lays the data of a response for the DMA: after the tables in its Chord area (R311; DESIGN CHOICE, log 92). -/
def rspBuffer : Nat := 0x10702400

/-- The words that the mailbox DMA moves from the buffer, and whether a poisoned one has stopped it (R97). -/
def State.dmaWords (s : State) : List Nat → State × List Native × Bool
  | [] => (s, [], false)
  | i :: is =>
    match s.chordReadAt (rspBuffer + 16 * i) .mbox with
    | (t, some (w, false)) => let r := t.dmaWords is; (r.1, w :: r.2.1, r.2.2)
    | (t, _) => (t, [], true)

/-- The data of a response laid in the buffer and moved by the DMA: a poisoned word ends the command with POISON and its index, and
neither it nor a later word arrives (R97, Table 12-5; log 92). The ROM, which has no Chord area, writes the region itself. -/
def State.moveData (s : State) (r : Response) : State × Response :=
  if s.romSet then (s, r)
  else
    let s1 := s.each r.data.zipIdx (fun p s => s.chordStore (rspBuffer + 16 * p.2) p.1 false)
    let m := s1.dmaWords (List.range r.data.length)
    (m.1, if m.2.2 then { r with code := 0x0A, detail := BitVec.ofNat 8 m.2.1.length, data := m.2.1 } else { r with data := m.2.1 })

/-- Drunor's write of DONE: the prepared response, or what the header's checks say, ends the command. A command that nothing
has answered ends with the header that stands in the response region. -/
def State.hmbxDone (s : State) : State :=
  if !s.hmbx.busy then s
  else match s.hmbx.prepared, s.precheck with
  | some r, _ => let m := s.moveData r; m.1.endCommand { m.2 with duration := s.duration } false
  | none, .replay r => let m := s.moveData r; (m.1.endCommand m.2 true).cntHmbx .replay
  | none, .status code detail =>
    s.endCommand ⟨s.hmbx.busyTag, (cmdOf s.hmbx.cmd[0]).opcode, code, detail, [], s.duration⟩ (code == 0x01 || code == 0x0C)
  | none, .execute =>
    if s.returnDone then s.endCommand ⟨s.hmbx.busyTag, 0x70, 0, 0, [], s.duration⟩ false
    else s.onHmbx (fun h => { h with
      lastTag := h.busyTag, lastStatus := field h.rsp[0] 48 16, done := true, busy := false, cur := none, inProgress := none })

def execHmbxDone (s : State) : Out := .next (s.stewWrite blkHmbx).hmbxDone

/-! ## The window (R296, R299 to R301) -/

/-- The SPI width is not known and the outputs are tri-stated until the option phase ends (R297). -/
def State.spiDead (s : State) : Bool := match s.rst.seq with | some ⟨.l0, _, 2⟩ => true | _ => s.rst.optionHold

/-- The command region and the doorbell take writes. -/
def State.hostOpen (s : State) : Bool := !s.hmbx.busy && (s.hmbx.ready || s.hmbx.bootWait)

/-- A write or doorbell discarded (R301). -/
def State.discardWrite (s : State) : State :=
  (s.onHmbx (fun h => { h with rejected := true, rejectCount := satInc h.rejectCount })).cntHmbx .discard

/-- A write of the STATUS word (R300). -/
def State.statusWrite (s : State) (w : Native) : State :=
  let clr := w.getLsbD 4
  s.onHmbx (fun h => { h with
    rejected := h.rejected && !clr, rejectCount := if clr then 0 else h.rejectCount
    resetSeen := h.resetSeen && !w.getLsbD 7 })

def execStatusWrite (word : Native) (s : State) : Out := .next (s.statusWrite word)

/-- A write of the doorbell word (R301). In WINTER it wakes the Steward. -/
def State.doorbell (s : State) (w : Native) : State :=
  if !s.hostOpen || w != 1 then s.discardWrite
  else
    let c := cmdOf s.hmbx.cmd[0]
    let s1 := s.onHmbx (fun h => { h with
      busy := true, done := false, busyTag := c.tag, cur := some c, prepared := none, inProgress := none
      rangAt := s.metr.lineTime })
    (s1.stewIrq blkHmbx).when (s.powerOf rqStw == .retain) State.askSystem

def execDoorbell (word : Native) (s : State) : Out := .next (s.doorbell word)

/-- A native word written at a window offset. -/
def State.windowWord (s : State) (off : Nat) (w : Native) : State :=
  if off = 0 then s.statusWrite w
  else if off = 0xF0 then s.doorbell w
  else if 0x100 ≤ off ∧ off < 0x200 then
    if s.hostOpen then s.onHmbx (fun h => { h with cmd := updN h.cmd ((off - 0x100) / 16) (fun _ => w) })
    else s.discardWrite
  else s

/-- The words of a window write in order; a trailing incomplete word is discarded and counted. -/
def State.windowWords : Nat → Nat → List Byte → State → State
  | 0, _, _, s => s
  | fuel + 1, off, bs, s =>
    if bs.isEmpty then s
    else if bs.length < 16 then s.cntHmbx .badXfer
    else State.windowWords fuel (off + 16) (bs.drop 16) (s.windowWord off (ofBytes 128 (bs.take 16)))

def execWindowWrite (addr : BitVec 16) (bytes : List Byte) (s : State) : Out :=
  if field addr 12 4 != 0 || field addr 0 4 != 0 then .next (s.cntHmbx .badXfer)
  else .next (State.windowWords (bytes.length / 16 + 1) addr.toNat bytes s)

/-- Byte `i` of a list of words that starts at a window offset. -/
def wordsByte (ws : List Native) (i : Nat) : Byte := field (ws[i / 16]?.getD 0) (8 * (i % 16)) 8

/-- The byte a read finds at a window offset (Table 12-2). -/
def State.windowByte (s : State) (off : Nat) : Byte :=
  if off < 0x10 then wordsByte [s.statusWord] off
  else if 0x200 ≤ off ∧ off < 0x600 then wordsByte s.hmbx.rsp.toList (off - 0x200)
  else if 0x600 ≤ off ∧ off < 0x800 then wordsByte [s.hmbx.fifo.head?.getD 0] (off % 16)
  else if 0x800 ≤ off ∧ off < 0x830 then wordsByte s.infoWords (off - 0x800)
  else 0

/-- The oldest event entry leaves the FIFO. -/
def State.popEvent (s : State) : State := s.onHmbx (fun h => { h with fifo := h.fifo.drop 1 })

/-- After the byte at an offset, the `k`-th of its transaction: the sixteenth byte of an event entry pops it, and the whole
response header has been read. -/
def State.windowSeen (s : State) (off k : Nat) : State :=
  if k < 15 then s
  else if 0x600 ≤ off ∧ off < 0x800 ∧ off % 16 = 15 then s.popEvent
  else if off = 0x20F then s.onHmbx (fun h => { h with irqDone := false })
  else s

/-- `n` bytes read from an offset, the next of which is the `k`-th of the transaction. -/
def State.windowRead : Nat → Nat → Nat → List Byte → State → State × List Byte
  | 0, _, _, bs, s => (s, bs.reverse)
  | n + 1, off, k, bs, s => State.windowRead n ((off + 1) % 0x1000) (k + 1) (s.windowByte off :: bs) (s.windowSeen off k)

/-- The bytes that a transaction returned. -/
def State.giveBytes (s : State) (bs : List Byte) : State := { s with ans := ⟨0, false, false, bs, 0⟩ }

def execWindowRead (addr : BitVec 16) (n : Nat) (s : State) : Out :=
  if field addr 12 4 != 0 then .next ((s.cntHmbx .badXfer).giveBytes [])
  else if s.spiDead then .next (s.giveBytes [])
  else
    let (s1, bs) := State.windowRead n addr.toNat 0 [] s
    .next (s1.giveBytes bs)

/-- STATUS[31:0] repeated (R297). -/
def execFastStatus (n : Nat) (s : State) : Out :=
  if s.spiDead then .next (s.giveBytes [])
  else .next (s.giveBytes ((List.range n).map (fun i => field s.statusWord (8 * (i % 4)) 8)))

/-- 16 bytes of the event port (R316). -/
def execEventPop (s : State) : Out :=
  .next (s.popEvent.giveBytes (bytesOf 16 (s.hmbx.fifo.head?.getD 0)))

/-! ## The reset frame (R298) -/

/-- The level a frame's bytes request; none where they deviate. -/
def frameLevel (bs : List Byte) : Option Level :=
  match bs with
  | [0xD5, 0x5A, 0xA5, 0xC3, 0x3C, 0xA5, 0x5A, 0x3C, 0xC3, l, nl] =>
    if nl != ~~~ l then none else if l = 1 then some .l1 else if l = 2 then some .l2 else none
  | _ => none

def execResetFrame (bytes : List Byte) (s : State) : Out :=
  match frameLevel bytes with
  | some l => .next ((s.cntHmbx .resetFrame).requestReset 3 (if s.rst.coda then .l1 else l) 0 false)
  | none => .next (s.cntHmbx .badXfer)

end Sys2Proof.Machine
end

