-- ==== Sys2Proof/Machine/MirrorLink.lean ====
section
/-!
DEFINITION. Pairing and mirroring (13): the link with its numbering, acknowledgement and retransmission (R320 to R324), the
handshake and alignment (R325 to R328), Verdict deltas (R330, R331), pair epochs (R335 to R338), sweeps, journal, bulk sessions
and peer resets (R340 to R347).
-/
namespace Sys2Proof.Machine

/-! ## Sending (R321, R322) -/

/-- Precedence of a packet between packets (R322). -/
def Packet.rank : Packet → Nat
  | .resetNotice .. => 2
  | .epochPropose .. | .epochAck .. | .epochGo .. | .goAck .. | .epochDrop .. => 3
  | .state .. => 4
  | .delta .. => 5
  | .sweep .. | .resetReq .. => 6
  | .journal .. | .hello .. => 7
  | .syncOpen .. | .syncGrant | .syncData .. | .syncEnd .. | .syncRefuse => 8

/-- A packet that may leave before the link is up: STATE alone (R323). -/
def Packet.early : Packet → Bool
  | .state .. => true
  | _ => false

/-- A STATE packet carries LINE_TIME at its start (Table 13-2). -/
def Packet.stamped (now : Time) : Packet → Packet
  | .state _ w0 w1 => .state now w0 w1
  | p => p

/-- The queued packet that goes first: the lowest rank, the oldest among equals. -/
def nextPacket (up : Bool) (q : List Packet) : Option (Nat × Packet) :=
  ((List.range q.length).zip q).foldl (fun b x =>
    if !up && !x.2.early then b
    else match b with
    | none => some x
    | some y => if x.2.rank < y.2.rank then some x else b) none

/-- The object of a bulk session (R341). -/
def State.syncObject (s : State) (kind : BitVec 4) : List Byte :=
  match kind.toNat with
  | 1 => s.drunor.cfg
  | 2 => (s.drunor.journal.map (bytesOf 16)).flatten
  | 3 => s.imageBytes (if s.rst.bootRec.slotB then .slotB else .slotA)
  | _ => []

/-- A session opened by its sender, or kept for later while another runs (R341, R342). -/
def State.openSession (s : State) (kind : BitVec 4) : State :=
  if s.mirl.session.isSome || !s.mirl.linkUp then s.onMirl (fun m => { m with requeued := some kind })
  else
    let bs := s.syncObject kind
    (s.onMirl (fun m => { m with
      session := some ⟨true, kind, bs.length, false, wordsOfBytes bs.length bs, 0⟩ })).mirlSend
        (.syncOpen kind (BitVec.ofNat 64 bs.length))

/-- A requeued session reopened. -/
def State.reopen (s : State) : State :=
  match s.mirl.requeued with
  | some k => (s.onMirl (fun m => { m with requeued := none })).openSession k
  | none => s

/-- The sender's session ends when its SYNC_END leaves. -/
def State.sentPacket (s : State) (p : Packet) : State :=
  match p with
  | .syncEnd _ => (s.onMirl (fun m => { m with session := none })).reopen
  | _ => s

/-- The next transmission: ACK and NAK sets, then retransmissions in order, then the queued packet of the lowest rank while at
most 16 are unacknowledged. -/
def State.mirlTransmit (s : State) : State :=
  match s.mirl.ackq with
  | a :: rest => s.onMirl (fun m => { m with ackq := rest, out := some a })
  | [] =>
    if s.mirl.resend != 0 then
      match s.mirl.unacked[s.mirl.unacked.length - s.mirl.resend]? with
      | some (seq, p) =>
        ((s.onMirl (fun m => { m with resend := m.resend - 1, out := some (.packet seq p) })).cntMirl .retx).cntTxPkt
      | none => s.onMirl (fun m => { m with resend := 0, out := none })
    else match nextPacket s.mirl.linkUp s.mirl.txq with
    | some (i, p0) =>
      if 16 ≤ s.mirl.unacked.length then s.onMirl (fun m => { m with out := none })
      else
        let p := p0.stamped s.metr.lineTime
        ((s.onMirl (fun m => { m with
          txq := m.txq.eraseIdx i, unacked := m.unacked ++ [(m.nextSeq, p)], nextSeq := m.nextSeq + 1
          out := some (.packet m.nextSeq p) })).cntTxPkt).sentPacket p
    | none => s.onMirl (fun m => { m with out := none })

def execMirlPacketTransmit (s : State) : Out := .next (if s.mirl.enable then s.mirlTransmit else s)

/-- Packets up to a sequence acknowledged (R321). -/
def State.acknowledged (s : State) (seq : Byte) : State :=
  if s.mirl.unacked.any (fun p => p.1 == seq) then
    s.onMirl (fun m =>
      let left := (m.unacked.dropWhile (fun p => p.1 != seq)).drop 1
      { m with unacked := left, resend := min m.resend left.length })
  else s

def execMirlAck (seq : Byte) (s : State) : Out := .next (if s.mirl.enable then s.acknowledged seq else s)

/-- A NAK: every unacknowledged packet from the named one is sent again. -/
def execMirlNak (seq : Byte) (s : State) : Out :=
  if s.mirl.enable && s.mirl.unacked.any (fun p => p.1 == seq) then
    .next (s.onMirl (fun m => { m with resend := (m.unacked.dropWhile (fun p => p.1 != seq)).length }))
  else .next s

/-- No acknowledgement advance within 20 us: all from the oldest. -/
def execMirlRetxTimeout (s : State) : Out :=
  .next (if s.mirl.enable then s.onMirl (fun m => { m with resend := m.unacked.length }) else s)

/-! ## Receiving (R321) -/

/-- A packet with bad framing, CRC-32C or a code violation is discarded. -/
def execMirlCrcError (s : State) : Out := .next (if s.mirl.enable then s.cntMirl .crcErr else s)

/-- An ACK set for the last accepted packet waits to be sent. -/
def State.queueAck (s : State) (seq : Byte) : State := s.onMirl (fun m => { m with ackq := m.ackq ++ [.ack seq] })

/-- A packet against the sequence rules; `act` is its effect if it is accepted. A later SEQ lies within the 16 packets that a
sender may have outstanding (log 32). -/
def State.receivePacket (s : State) (h : PktHdr) (act : State → State) : State :=
  let expected := s.mirl.lastSeq + 1
  if !s.mirl.enable then s
  else if h.seq = expected then
    let s1 := (s.onMirl (fun m => { m with lastSeq := h.seq, gapNaked := false })).cntRxPkt.queueAck h.seq
    act (s1.when h.ackV (·.acknowledged h.ack))
  else if (s.mirl.lastSeq - h.seq).toNat < 128 then (s.cntMirl .dup).queueAck s.mirl.lastSeq
  else if (h.seq - expected).toNat < 16 then
    if s.mirl.gapNaked then s
    else (s.onMirl (fun m => { m with gapNaked := true, ackq := m.ackq ++ [.nak expected] })).cntMirl .nakSent
  else s

/-! ## The link (R323, R324) -/

/-- ENABLE runs the link; it is ignored in Solo (Table 13-5). Cleared, the lane stops (log 33). -/
def State.mirlSetEnable (s : State) (on : Bool) : State :=
  if s.rst.opt.role = .solo then s
  else if on then (s.onMirl (fun m => { m with enable := true })).when (!s.mirl.enable) (·.askGrant rqMirl)
  else (s.onMirl (fun m => { m with enable := false, linkUp := false, relink := false, relinkHeld := false })).dropGrant rqMirl

def execMirlEnable (on : Bool) (s : State) : Out := .next ((s.stewWrite blkMirl).mirlSetEnable on)

/-- RELINK drops and retrains the link; one written while another runs is held (R14). -/
def State.mirlRelink (s : State) : State :=
  if !s.mirl.enable then s
  else if s.mirl.relink then s.onMirl (fun m => { m with relinkHeld := true })
  else s.retrain.onMirl (fun m => { m with relink := true })

def execMirlRelink (s : State) : Out := .next (s.stewWrite blkMirl).mirlRelink
def execMirlRetrain (s : State) : Out := .next (s.when s.mirl.enable State.retrain)

/-- The HELLO of this device (Table 13-2). -/
def State.helloPacket (s : State) : Packet :=
  let d := digestBytes s.drunor.digest
  let waits := !s.rst.drunor && s.rst.opt.bootsel == 2
  .hello (place 128 0 (roleNumber s.rst.opt.role) ||| place 128 2 (bit waits) ||| place 128 64 s.rst.drunorVersion)
    (place 128 0 s.rst.appVersion) (ofBytes 128 (d.take 16)) (ofBytes 128 (d.drop 16))

/-- The link is up: HELLO follows, with what B has not yet had numbered. -/
def execMirlLinkUp (s : State) : Out :=
  if s.mirl.enable && !s.mirl.linkUp && s.rst.opt.role != .solo then
    -- a RELINK held meanwhile starts now (R14)
    if s.mirl.relinkHeld then .next (s.retrain.onMirl (fun m => { m with relinkHeld := false })) else
    let s1 := (s.onMirl (fun m => { m with
      relink := false, linkUp := true, peer := true, pair := if m.pair == .down || m.pair == .solo then .handshake else m.pair })).evMirl 0
    let s2 := s1.mirlSend s1.helloPacket
    .next ((s2.when (!s.mirl.unnumbered.isEmpty) (·.mirlSend (.journal s.mirl.unnumbered))).reopen)
  else .next s

/-- The peer is absent: PAIR_LINK; a device of a formed pair goes on alone (R323, R338). -/
def State.linkLost (s : State) : State :=
  let was := s.formed
  let s1 := s.onMirl (fun m => { m with
    linkUp := false, peer := false, session := none, proposed := none, observer := false, noticeAt := none
    pair := if m.pair == .conflict then .conflict else .solo, soloPending := m.soloPending || was
    requeued := match m.session with | some x => if x.outgoing then some x.kind else m.requeued | none => m.requeued })
  let s2 := ((s1.evMirl 1).evMirl 2).detect .pairLink 0 0
  -- a COMMIT_CONFIG that waited for B's report (log 34)
  s2.when s.drunor.awaitPeer (fun s => (s.onDrunor (fun d => { d with awaitPeer := false })).prepareFor 0x11 0x0F 1 [])

def execMirlLinkLost (s : State) : Out :=
  if s.mirl.enable && (s.mirl.linkUp || s.mirl.peer) then .next s.linkLost else .next s

/-- A DELTA unacknowledged within 2T of its FDONE: as a lost link (R330). -/
def execDeltaAckTimeout (s : State) : Out :=
  if s.mirl.enable && s.mirl.unacked.any (fun p => match p.2 with | .delta .. => true | _ => false) then .next s.linkLost
  else .next s

/-! ## Time and alignment (R327, R328) -/

/-- Nanoseconds of a signed number of ticks. -/
def tickNs (d : Int) : Int := d * 1000 / 24

/-- Offset of B's time from A's in ticks, from one exchange: own arrival R, peer's stamp T, the peer's arrival R' of this
device's STATE and that STATE's stamp T', which its low 16 bits name (R327). -/
def State.exchange (s : State) (stamp : Time) (w0 : Native) : Int :=
  let now := s.metr.lineTime
  let echo : BitVec 16 := field w0 32 16
  let back : BitVec 16 := now.setWidth 16 - echo
  let own : Int := now.toNat - back.toNat
  let peerAt : Int := (field w0 64 64 : Time).toNat
  let d := ((now.toNat : Int) - stamp.toNat - (peerAt - own)) / 2
  if s.rst.opt.role = .a then -d else d

/-- Every trunk engine is DOWN and the Governor DISARMED: LINE_TIME may be stepped (R236). -/
def State.alignable (s : State) : Bool := s.mayStep

/-- The magnitude of PEER_OFFSET is within a bound in ns. -/
def Mirl.within (m : Mirl) (ns : Nat) : Bool := decide (m.offset.toInt.natAbs ≤ ns)

/-- Time offset within 50 us, and the frame boundaries coincide within 50 us with the same FRAME (R328). -/
def State.aligned (s : State) : Bool :=
  s.mirl.within 50000 &&
    (match s.metr.openAt, s.mirl.peerBoundary with
    | some _, some (t, f) =>
      decide (((s.metr.nextAt.toNat : Int) - t.toNat).natAbs ≤ 50 * Config.ticksPerUs) && f == s.metr.frameNow + 1
    | some _, none => false
    | none, _ => true)

/-- The pair is formed: Drunor sets MIRROR_BASE (R329), and A aligns B's journal (R347). -/
def State.formPair (s : State) : State :=
  let s1 := s.onMirl (fun m => { m with
    pair := .paired, observer := false, soloPending := false, mirrorBase := if s.rst.drunor then 0x20B else m.mirrorBase })
  s1.when (s.rst.opt.role == .a) (·.openSession 2)

/-- Rows 1 to 3 pass: alignment (R327, R328). B steps to A where it may; else A, whose peer is not DISARMED, steps to B and takes
its FRAME and boundary; `sweep` is the peer's period when a STATE brings it. -/
def State.tryForm (s : State) (peerFrame : BitVec 16) (sweep : Option (BitVec 2)) : State :=
  let shift := s.metr.lineTime - BitVec.ofInt 64 (s.mirl.offset.toInt * 24 / 1000)
  if s.rst.opt.role = .b && s.alignable && s.mirl.peerArrival != 0 then
    let s1 := (s.stepTime shift).onMetr (fun m => { m with frameNow := peerFrame })
    (s1.onMirl (fun m => { m with offset := 0, good := 0 })).formPair
  else if s.aligned then s.formPair
  else if s.rst.opt.role = .a && s.alignable && s.mirl.peerGov != 0 then
    match sweep, s.mirl.peerBoundary with
    | some sel, some (t, f) =>
      let s1 := (s.stepTime (s.metr.lineTime + BitVec.ofInt 64 (s.mirl.offset.toInt * 24 / 1000))).onMetr (fun m =>
        { m with frameNow := f - 1, nextAt := t, sweepNext := some sel })
      (s1.onMirl (fun m => { m with offset := 0 })).formPair
    | _, _ => s
  else s

/-- PAIR_TIME: reported, with the TIME event. -/
def State.pairTime (s : State) : State := (s.evMirl 5).detect .pairTime 0 0

/-- Rows 1 to 3 of Table 13-3 pass for the peer's last HELLO. -/
def State.rowsPass (s : State) : Bool :=
  s.mirl.peerHello.isSome && !s.mirl.conflict && s.mirl.versionOk && s.mirl.digestMatch

/-- What a STATE says, recorded; B's discipline; a handshake that waits for alignment goes on. -/
def State.takeState (s : State) (h : PktHdr) (arg : BitVec 64) (w0 w1 : Native) : State :=
  let valid := (field w0 64 64 : Time) != 0
  let d := s.exchange arg w0
  let ns : Int := if valid then tickNs d else s.mirl.offset.toInt
  let near := decide (ns.natAbs ≤ 2000)
  let inTime := decide (ns.natAbs ≤ 50000)
  let wasIn := s.mirl.within 50000
  let s1 := s.onMirl (fun m => { m with
    peerArg := arg, peerArrival := s.metr.lineTime, peerGov := field w0 0 2, peerEpoch := field w0 8 8
    peerLast := field w0 16 8, peerBoundary := some (field w1 0 64, field w1 64 16)
    offset := BitVec.ofInt 32 ns, good := if valid && near then m.good + 1 else 0 })
  let feed := s.rst.opt.role == .b && valid && (inTime || s.formed) && !(near && decide (100 ≤ s1.mirl.good))
  let s2 := s1.when feed (·.onMetr (fun m => { m with ltAdj := BitVec.ofInt 32 (-d) }))
  let s3 := s2.when (s.formed && wasIn && !inTime) (·.pairTime)
  if s.mirl.pair = .handshake && s3.rowsPass && s.mirl.linkUp && valid then s3.tryForm h.frame (some (field w0 28 2)) else s3

def execState (h : PktHdr) (arg : BitVec 64) (w0 w1 : Native) (s : State) : Out :=
  .next (s.receivePacket h (fun s => s.takeState h arg w0 w1))

/-! ## The handshake (R325, Table 13-3) -/

/-- Major and minor of a VERSION (R283). -/
def majorOf (v : BitVec 64) : BitVec 16 := field v 0 16
def minorOf (v : BitVec 64) : BitVec 16 := field v 16 16

/-- The digest in W2 and W3 of a HELLO. -/
def helloDigest (w2 w3 : Native) : BitVec 256 := digestOfBytes (bytesOf 16 w2 ++ bytesOf 16 w3)

/-- The checks of Table 13-3 on a HELLO, in order. -/
def State.checkHello (s : State) (frame : BitVec 16) (w0 w1 w2 w3 : Native) : State :=
  let s0 := s.onMirl (fun m => { m with peerHello := some (w0, w1, w2, w3) })
  let theirs : BitVec 64 := field w0 64 64
  let compat := majorOf theirs == majorOf s.rst.drunorVersion && minorOf theirs == minorOf s.rst.drunorVersion &&
    majorOf (field w1 0 64) == majorOf s.rst.appVersion
  let same := helloDigest w2 w3 == s.drunor.digest
  if s.mirl.conflict || (field w0 0 2 : BitVec 2) == roleNumber s.rst.opt.role then
    ((s0.onMirl (fun m => { m with conflict := true, pair := .conflict })).evMirl 3).detect .roleConflict 0 0
  else if !compat then
    if s.rst.opt.role = .b then s0.onMirl (fun m => { m with versionOk := false, observer := true, pair := .observer })
    else s0.onMirl (fun m => { m with versionOk := false, pair := .solo, soloPending := m.soloPending || s.formed })
  else
    let s1 := s0.onMirl (fun m => { m with
      versionOk := true, observer := false, digestMatch := same
      pair := if m.pair == .paired then .paired else .handshake })
    let s2 := s1.when (!same) (·.evMirl 4)
    if s.formed || !same then s2
    else
      let s3 := s2.tryForm frame none
      if s3.formed then s3 else s3.pairTime

/-- B's report of its digest ends A's COMMIT_CONFIG (R329): OK when the digests are equal, else CONFIG with B's detail, which no
packet carries: a free value (log 34). -/
def State.commitReport (s : State) : State :=
  if !s.drunor.awaitPeer then s
  else
    let s1 := s.onDrunor (fun d => { d with awaitPeer := false })
    if s.mirl.digestMatch then
      s1.prepareFor 0x11 0 0 ([ofBytes 128 ((digestBytes s.drunor.digest).take 16), ofBytes 128 ((digestBytes s.drunor.digest).drop 16)]
        ++ planSummary s.unis.plan)
    else (s1.prepareFor 0x11 0x07 ((Config.freeNative s.free).setWidth 8) []).fresh
where
  /-- One 32-bit summary per mask 1 to 15 (R309). -/
  planSummary (p : Vector Plan 16) : List Native :=
    let one := fun (m : Nat) =>
      let q := getN p m ⟨0, 0, 0, false⟩
      (place 32 0 q.sweep ||| place 32 16 q.shed : Word)
    (List.range 4).map (fun i => (List.range 4).foldl (fun w j =>
      let m := 4 * i + j + 1
      if m ≤ 15 then w ||| place 128 (32 * j) (one m) else w) 0)

def execHello (h : PktHdr) (w0 w1 w2 w3 : Native) (s : State) : Out :=
  .next (s.receivePacket h (fun s =>
    let s1 := (s.checkHello h.frame w0 w1 w2 w3).commitReport
    -- R344: a peer in its ROM waits for the image of the active slot
    s1.when (w0.getLsbD 2 && s.rst.drunor) (·.openSession 3)))

/-! ## Epochs (R335 to R338) -/

/-- B acknowledges A's proposal: STAGED with the nonce, ARM_IN asserted, Table 13-3 passes. -/
def State.acksEpoch (s : State) (nonce : Word) : Bool :=
  (match s.gov.stage with
    | some (t, n) => n == nonce && decide (s.metr.lineTime.toNat - t.toNat ≤ 500 * Config.ticksPerMs)
    | none => false) &&
    s.armIn && s.formed && s.mirl.digestMatch && s.mirl.versionOk && !s.mirl.conflict && s.mirl.within 50000

def execEpochPropose (h : PktHdr) (e : Byte) (nonce : Word) (s : State) : Out :=
  .next (s.receivePacket h (fun s =>
    if s.rst.opt.role = .b then
      let ok := s.acksEpoch nonce
      (s.onMirl (fun m => { m with proposed := if ok then some (e, nonce, true) else none })).mirlSend (.epochAck e nonce (!ok))
    else s))

def execEpochAck (h : PktHdr) (e : Byte) (nonce : Word) (refuse : Bool) (s : State) : Out :=
  .next (s.receivePacket h (fun s =>
    match s.mirl.proposed with
    | some (e', n', _) =>
      if s.rst.opt.role = .a && e' = e && n' = nonce then
        s.onMirl (fun m => { m with
          proposed := some (e, nonce, !refuse), ackedEpoch := if refuse then m.ackedEpoch else e })
      else s
    | none => s))

/-- B's Drunor writes the nonce and CONFIRM to its Governor, and answers GO_ACK when it is accepted; a GO that does not name the
proposal it has acknowledged is refused (R336). -/
def State.takeGo (s : State) (e : Byte) (nonce : Word) (at_ : Time) : State :=
  let s0 := (s.onGov (fun g => { g with nonce := nonce })).onMirl (fun m => { m with
    going := if m.proposed == some (e, nonce, true) then some (e, nonce, at_, true) else none })
  match s0.confirmRefusal with
  | some _ => s0.govConfirm.onMirl (fun m => { m with going := none })
  | none => (s0.govConfirm.onMirl (fun m => { m with proposed := none })).mirlSend (.goAck e nonce)

def execEpochGo (h : PktHdr) (e : Byte) (nonce : Word) (at_ : Time) (s : State) : Out :=
  .next (s.receivePacket h (fun s => s.when (s.rst.opt.role == .b && s.formed) (fun s => s.takeGo e nonce at_)))

/-- A's confirmation fails: GOV_RESULT 5, EPOCH_DROP, and the command ends with PEER 5 (R336, R326; log 35). -/
def State.refuseGo (s : State) (e : Byte) : State :=
  (((s.onMirl (fun m => { m with going := none })).onGov (fun g => { g with stage := none })).result 5).mirlSend (.epochDrop e) |>.prepareFor
    0x23 0x0F 5 []

/-- GO_ACK at least 1 ms before S lets A switch; a later one is a refusal. -/
def execGoAck (h : PktHdr) (e : Byte) (nonce : Word) (s : State) : Out :=
  .next (s.receivePacket h (fun s =>
    match s.mirl.going with
    | some (e', n', t, _) =>
      if s.rst.opt.role = .a && e' = e && n' = nonce then
        if s.metr.lineTime.toNat + Config.ticksPerMs ≤ t.toNat then
          s.onMirl (fun m => { m with going := some (e, nonce, t, true) })
        else s.refuseGo e
      else s
    | none => s))

/-- The epoch carried and stamped from the switch instant on. -/
def State.carryEpoch (s : State) (e : Byte) : State :=
  ((s.setEpoch e).onGov (fun g => { g with epochHb := e })).onMirl (fun m => { m with soloEpoch := false })

/-- The switch instant S (R336). -/
def execEpochSwitch (s : State) : Out :=
  match s.mirl.going with
  | some (e, _, t, ok) =>
    let s1 := s.advance t
    if s.rst.opt.role = .a then
      if ok && (s.gov.state == .armed || s.gov.state == .permitted) then
        let s2 := (s1.permit.carryEpoch e).onMirl (fun m => { m with going := none })
        .next (s2.prepareFor 0x23 0 0 [place 128 0 s2.gov.echo ||| place 128 32 s2.gov.epoch])
      else .next (s1.refuseGo e)
    else
      let s2 := s1.onMirl (fun m => { m with going := none })
      .next (s2.when (s.gov.state == .permitted) (·.carryEpoch e))
  | none => .next s

/-- EPOCH_DROP: before the switch B's Governor returns to ARMED; after it, ENERGIZE and SET_POINT are blocked until the next pair
epoch (R336, R337). -/
def execEpochDrop (h : PktHdr) (e : Byte) (s : State) : Out :=
  .next (s.receivePacket h (fun s =>
    match s.mirl.going with
    | some (e', _, _, _) =>
      if s.rst.opt.role = .b && e' = e then
        let s1 := s.onMirl (fun m => { m with going := none })
        s1.when (s.gov.state == .permitted) (fun s =>
          ((s.onGov (fun g => { g with state := .armed, epoch := 0 })).fixZones).journalFree 2)
      else s
    | none =>
      s.when (s.gov.state == .permitted && s.gov.epoch == e) (·.onGov (fun g => { g with pairBlocked := true }))))

/-! ## Verdict deltas (R330, R331) -/

/-- The Verdict words of a range. -/
def rangeWords (e : Native) (i : Nat) : Bool := decide (rangeFirst e / 4 ≤ i) && decide (i ≤ rangeLast e / 4)

/-- Runs of at most 64 consecutive indices of a rising list: each its first index and length. -/
def runsOf (xs : List Nat) : List (Nat × Nat) :=
  (xs.foldl (fun (rs : List (Nat × Nat)) n =>
    match rs with
    | (f, k) :: rest => if f + k = n ∧ k < 64 then (f, k + 1) :: rest else (n, 1) :: rs
    | [] => [(n, 1)]) []).reverse

/-- The DELTA packet of one run of Verdict words. -/
def State.deltaPacket (s : State) (run : Nat × Nat) (frame : BitVec 16) : Packet :=
  let ws := (List.range run.2).map (fun i => s.peekWord ⟨.verdict, run.1 + i⟩)
  .delta (BitVec.ofNat 16 run.1)
    (((List.range run.2).zip ws).foldl (fun m p => if p.2.2 then m ||| oneHot 64 p.1 else m) 0) (ws.map (·.1)) frame

/-- Bit 31 of each channel of a Verdict word; a poisoned word counts as LOCKOUT set on all four. -/
def lockouts (w : Native) (poison : Bool) : BitVec 4 :=
  if poison then 15
  else bit (w.getLsbD 127) ++ bit (w.getLsbD 95) ++ bit (w.getLsbD 63) ++ bit (w.getLsbD 31)

/-- The LOCKOUT bits of a Verdict word. -/
def lockMask (m : BitVec 4) : Native :=
  (setBits m).foldl (fun w i => w ||| oneHot 128 (32 * i + 31)) 0

/-- A Verdict word written on port B or through an alias is dirty (R330). -/
def State.markDirty (s : State) (i : Nat) : State := s.onMirl (fun m => { m with dirty := insertNat i m.dirty })

/-- One received unit: the stricter LOCKOUT wins (R331). -/
def State.mergeUnit (s : State) (i : Nat) (w : Native) (poison : Bool) : State :=
  let s0 := s.noteRead ⟨.verdict, i⟩ .mirror
  let own := s.peekWord ⟨.verdict, i⟩
  let mine := lockouts own.1 own.2
  let theirs := lockouts w poison
  let miss := theirs &&& ~~~ mine
  let s1 := s0.when (miss != 0) (fun s =>
    let t := (s.storeParts .setBits [⟨⟨.verdict, i⟩, lockMask miss, BitVec.allOnes 128⟩] false .mirror).1
    (((t.markDirty i).cntMirl .verdictDiff).evMirl 6).journalFree 5)
  s1.when (mine &&& ~~~ theirs != 0) (·.markDirty i)

/-- This device has yet to reach FDONE for a Verdict word in a frame. -/
def State.fdoneAhead (s : State) (i : Nat) (frame : BitVec 16) : Bool :=
  match s.metr.judged with
  | some j =>
    if j.frame = frame then
      (List.range 64).any (fun r => j.ranges.getLsbD r && !j.fdone.getLsbD r && rangeWords (s.rangeEntry (BitVec.ofNat 6 r)) i)
    else frame == s.metr.frameNow && s.metr.openAt.isSome
  | none => frame == s.metr.frameNow && s.metr.openAt.isSome

/-- One unit of a DELTA: into the shadow, merged, and kept for this device's own FDONE. -/
def State.takeUnit (s : State) (i : Nat) (w : Native) (poison : Bool) (frame : BitVec 16) : State :=
  if i < 32768 then
    let s1 := (s.chordStore (s.mirl.mirrorBase.toNat * 0x80000 + 16 * i) w poison).mergeUnit i w poison
    s1.when (s.fdoneAhead i frame) (·.onMirl (fun m => { m with held := m.held ++ [(i, w, poison, frame)] }))
  else s

def execDelta (h : PktHdr) (index : BitVec 16) (poison : BitVec 64) (words : List Native) (s : State) : Out :=
  .next (s.receivePacket h (fun s =>
    s.each ((List.range words.length).zip words) (fun p s =>
      s.takeUnit (index.toNat + p.1) p.2 (poison.getLsbD p.1) h.frame)))

/-- At a range's FDONE: held units of its words are applied again, then its dirty words leave as DELTA units (R330, R331). -/
def State.mirrorFdone (s : State) (r : BitVec 6) (frame : BitVec 16) : State :=
  let e := s.rangeEntry r
  let mine := fun (x : Nat × Native × Bool × BitVec 16) => x.2.2.2 == frame && rangeWords e x.1
  let s1 := s.each (s.mirl.held.filter mine) (fun x s => s.mergeUnit x.1 x.2.1 x.2.2.1)
  let s2 := s1.onMirl (fun m => { m with held := m.held.filter (fun x => !mine x) })
  if s2.mirl.linkUp then
    let go := s2.mirl.dirty.filter (rangeWords e)
    let s3 := s2.each go (fun i s => s.noteRead ⟨.verdict, i⟩ .mirror)
    let s4 := s3.onMirl (fun m => { m with dirty := m.dirty.filter (fun i => !rangeWords e i) })
    s4.each (runsOf go) (fun run s => s.mirlSend (s.deltaPacket run frame))
  else s2

/-! ## Sweep, journal, sessions, resets (R340 to R347) -/

/-- The peer's SWEEP: a longer period whose boundary is the one the open frame moves to stretches this device's frame with the
peer's (R31, R340); any other is taken at its boundary. -/
def State.takeSweep (s : State) (sel : BitVec 2) (at_ : Time) : State :=
  let near := us 50
  match s.metr.openAt with
  | some t =>
    if s.formed && s.metr.sweep < sel && s.metr.nextAt ≤ at_ + near && at_ ≤ t + period sel + near then s.stretchTo sel at_
    else s.onMirl (fun m => { m with sweepAt := some (sel, at_) })
  | none => s.onMirl (fun m => { m with sweepAt := some (sel, at_) })

def execSweep (h : PktHdr) (sel : BitVec 2) (at_ : Time) (s : State) : Out :=
  .next (s.receivePacket h (fun s => s.takeSweep sel at_))

/-- An entry with its SEQ. -/
def numbered (seq : Word) (e : Native) : Native := putField e 0 seq

/-- A journal packet: A numbers B's entries, records and returns them; B records what A numbered (R347). -/
def State.takeJournal (s : State) (es : List Native) : State :=
  if !s.rst.drunor then s
  else if s.rst.opt.role = .a then
    let ns := ((List.range es.length).zip es).map (fun p => numbered (s.drunor.nextSeq + BitVec.ofNat 32 p.1) p.2)
    (s.onDrunor (fun d => { d.record ns with nextSeq := d.nextSeq + BitVec.ofNat 32 es.length })).mirlSend (.journal ns)
  else
    let bare := es.map (numbered 0)
    let s1 := s.onDrunor (fun d => { d.record es with
      nextSeq := match es.getLast? with | some e => field e 0 32 + 1 | none => d.nextSeq })
    s1.onMirl (fun m => { m with unnumbered := m.unnumbered.filter (fun e => !bare.contains e) })

def execJournal (h : PktHdr) (entries : List Native) (s : State) : Out :=
  .next (s.receivePacket h (fun s => s.takeJournal entries))

/-- Kinds of session, and the window's size (R341). -/
def sessionOk (kind : BitVec 4) (bytes : BitVec 64) : Bool :=
  (kind == 1 || kind == 2 || kind == 3) && decide (bytes.toNat ≤ 0x100000)

/-- A session granted. -/
def State.grantSession (s : State) (kind : BitVec 4) (bytes : BitVec 64) : State :=
  (s.onMirl (fun m => { m with session := some ⟨false, kind, bytes.toNat, true, [], 0⟩ })).mirlSend .syncGrant

/-- SYNC_OPEN: one session at a time; of two that cross, A's runs (R342). -/
def State.takeOpen (s : State) (kind : BitVec 4) (bytes : BitVec 64) : State :=
  if !sessionOk kind bytes then s.mirlSend .syncRefuse
  else match s.mirl.session with
  | none => s.grantSession kind bytes
  | some x =>
    if x.outgoing && !x.granted && s.rst.opt.role == .b then
      (((s.onMirl (fun m => { m with requeued := some x.kind })).cntMirl .requeue).evMirl 7).grantSession kind bytes
    else s.mirlSend .syncRefuse

def execSyncOpen (h : PktHdr) (kind : BitVec 4) (bytes : BitVec 64) (s : State) : Out :=
  .next (s.receivePacket h (fun s => s.takeOpen kind bytes))

/-- The words of an object as packets. -/
def dataPackets : Nat → Nat → List Native → List Packet
  | 0, _, _ => []
  | fuel + 1, i, ws => if ws.isEmpty then [] else .syncData (BitVec.ofNat 16 i) (ws.take 64) :: dataPackets fuel (i + 1) (ws.drop 64)

def execSyncGrant (h : PktHdr) (s : State) : Out :=
  .next (s.receivePacket h (fun s =>
    match s.mirl.session with
    | some x =>
      if x.outgoing && !x.granted then
        let ps := dataPackets (x.words.length + 1) 0 x.words
        let sha := sha256 (((x.words.map (bytesOf 16)).flatten).take x.total)
        s.onMirl (fun m => { m with
          session := some { x with granted := true, count := ps.length }, txq := m.txq ++ ps ++ [.syncEnd sha] })
      else s
    | none => s))

/-- The sync window (R341). -/
def syncWindow : Nat := 0x10600000

def execSyncData (h : PktHdr) (index : BitVec 16) (words : List Native) (s : State) : Out :=
  .next (s.receivePacket h (fun s =>
    match s.mirl.session with
    | some x =>
      if !x.outgoing && index.toNat == x.count && decide (16 * (x.words.length + words.length) ≤ 0x100000) then
        let base := syncWindow + 16 * x.words.length
        let s1 := s.each ((List.range words.length).zip words) (fun p s => s.chordStore (base + 16 * p.1) p.2 false)
        s1.onMirl (fun m => { m with session := some { x with words := x.words ++ words, count := x.count + 1 } })
      else s
    | none => s))

/-- The receiver acts on an object: an image for its own commit, the journal of A, an image for the ROM. -/
def State.actOn (s : State) (kind : BitVec 4) (bs : List Byte) (ws : List Native) : State :=
  match kind.toNat with
  | 1 => s.onDrunor (fun d => { d with cfg := bs, cfgTotal := bs.length })
  | 2 => s.onDrunor (fun d => { d with
      journal := ws.drop (ws.length - 4096), nextSeq := match ws.getLast? with | some e => field e 0 32 + 1 | none => d.nextSeq })
  | _ => s.onMirl (fun m => { m with download := bs })

def execSyncEnd (h : PktHdr) (sha : BitVec 256) (s : State) : Out :=
  .next (s.receivePacket h (fun s =>
    match s.mirl.session with
    | some x =>
      if x.outgoing then s
      else
        let bs := ((x.words.map (bytesOf 16)).flatten).take x.total
        let s1 := s.onMirl (fun m => { m with session := none })
        (s1.when (bs.length == x.total && sha256 bs == sha) (·.actOn x.kind bs x.words)).reopen
    | none => s))

/-- A session packet. -/
def Packet.sync : Packet → Bool
  | .syncOpen .. | .syncGrant | .syncData .. | .syncEnd .. | .syncRefuse => true
  | _ => false

/-- A session given up: what it had queued is dropped. -/
def State.dropSession (s : State) : State := s.onMirl (fun m => { m with session := none, txq := m.txq.filter (fun p => !p.sync) })

def execSyncRefuse (h : PktHdr) (s : State) : Out :=
  .next (s.receivePacket h (fun s =>
    match s.mirl.session with
    | some x => if x.outgoing && !x.granted then s.dropSession.onMirl (fun m => { m with requeued := some x.kind }) else s
    | none => s))

/-- No packet for 10 ms: both abandon the session, its sender opens it again (R342). -/
def execSyncTimeout (s : State) : Out :=
  match s.mirl.session with
  | some x => .next (if x.outgoing then s.dropSession.openSession x.kind else s.dropSession.reopen)
  | none => .next s

/-- A level-2 notice extends the absence time to 20 ms (R323). -/
def execResetNotice (h : PktHdr) (level : BitVec 2) (s : State) : Out :=
  .next (s.receivePacket h (fun s => s.when (level == 2) (·.onMirl (fun m => { m with noticeAt := some s.metr.lineTime }))))

/-- The peer's reset request, in a formed pair or from an observer's peer (R343). -/
def execResetReq (h : PktHdr) (level : BitVec 2) (s : State) : Out :=
  .next (s.receivePacket h (fun s =>
    s.when ((s.formed || s.mirl.observer) && (level == 1 || level == 2)) (·.requestReset 8 (levelOf level.toNat) 0 false)))

end Sys2Proof.Machine
end

