-- ==== Sys2Proof/Machine/Registers.lean ====
section
/-!
DEFINITION. Register space (01): widths and rights (R6, R76), the common header (Table 01-2), the field types with their
same-cycle rules (Table 01-3), 64-bit counters and snapshots (R8, R9), commit tables (R208), TABLE_SYNC (R14, R19), and the
registers of every block the spec describes (Tables 03-11, 04-10, 04-11, 05-7, 07-7, 08-8, 09-9, 09-10, 10-7, 10-8, 11-17,
12-12, 13-5).
-/
namespace Sys2Proof.Machine

/-! ## Encodings of RO fields -/

/-- LINK_STATE. -/
def linkNumber : LinkState → BitVec 3
  | .down => 0 | .train => 1 | .discover => 2 | .up => 3 | .tacet => 4

/-- STATE of GOV_STATE. -/
def govNumber : GovState → BitVec 2
  | .disarmed => 0 | .armed => 1 | .permitted => 2 | .fermata => 3

/-- SEASON. -/
def seasonNumber : Season → BitVec 2
  | .winter => 0 | .spring => 1 | .summer => 2 | .autumn => 3

/-- MODE of SLICE_STATUS. -/
def modeNumber : SliceMode → BitVec 2
  | .checked => 1 | .mirrorOnly => 2 | .vectorOnly => 3

/-- PAIR_STATE of MIRL_STATUS. -/
def pairNumber : PairState → BitVec 3
  | .down => 0 | .handshake => 1 | .paired => 2 | .observer => 3 | .solo => 4 | .conflict => 5

/-- The half of a 64-bit register: 0 the low one. -/
def half (x : BitVec 64) (hi : Bool) : Word := if hi then field x 32 32 else field x 0 32

/-- Lane `k` of a native word: the register at 4 * k above its offset. -/
def laneOf (x : Native) (k : Nat) : Word := field x (32 * k) 32

/-- Bits of requesters (CRES_GRANTED, CRES_WAITING). -/
def requesterMap (xs : List (Fin 29)) : Word := xs.foldl (fun m r => m ||| oneHot 32 r.val) 0

/-! ## Counters of the blocks -/

/-- The index of the 32-bit counter at an offset, in the block's own numbering. -/
def counterAt (b : BlkId) (o : Nat) : Option Nat :=
  let span := fun (lo n : Nat) => if lo ≤ o ∧ o < lo + 4 * n ∧ o % 4 = 0 then some ((o - lo) / 4) else none
  if (trkOfBlk b).isSome then span 0x60 14
  else if b = blkMemc then span 0x30 6
  else if b = blkOsti then span 0x40 4
  else if b = blkUnis then span 0xB0 4
  else if b = blkChord then span 0x80 6
  else if b = blkGov then span 0x60 11
  else if b = blkFhub then span 0x2C 1
  else if b = blkMetr then span 0x50 2
  else if b = blkCres then span 0x40 2
  else if b = blkRstc then span 0x80 2
  else if b = blkHmbx then span 0x40 5
  else if b = blkMirl then span 0x60 6
  else none

/-- The CNT_OVF bit of a block's first 32-bit counter (R74, R232, R348; 0 elsewhere). -/
def firstOvf (b : BlkId) : Nat := if (trkOfBlk b).isSome then 2 else if b = blkGov then 1 else if b = blkMirl then 2 else 0

/-- A 32-bit counter's value. -/
def State.cntGet (s : State) (b : BlkId) (i : Nat) : Word :=
  match trkOfBlk b with
  | some t => getN s.trk[t].cnt i 0
  | none =>
    if b = blkMemc then getN s.memc.cnt i 0
    else if b = blkOsti then getN s.osti.cnt i 0
    else if b = blkUnis then getN s.unis.cnt i 0
    else if b = blkChord then getN s.chord.cnt i 0
    else if b = blkGov then getN s.gov.cnt i 0
    else if b = blkFhub then s.hub.overwrite
    else if b = blkMetr then getN s.metr.cnt i 0
    else if b = blkCres then getN s.cres.cnt i 0
    else if b = blkRstc then getN s.rst.cnt i 0
    else if b = blkHmbx then getN s.hmbx.cnt i 0
    else getN s.mirl.cnt i 0

/-- A 32-bit counter changed. -/
def State.cntPut (s : State) (b : BlkId) (i : Nat) (v : Word) : State :=
  match trkOfBlk b with
  | some t => s.onTrk t (fun k => { k with cnt := updN k.cnt i (fun _ => v) })
  | none =>
    if b = blkMemc then s.onMemc (fun k => { k with cnt := updN k.cnt i (fun _ => v) })
    else if b = blkOsti then s.onOsti (fun k => { k with cnt := updN k.cnt i (fun _ => v) })
    else if b = blkUnis then s.onUnis (fun k => { k with cnt := updN k.cnt i (fun _ => v) })
    else if b = blkChord then s.onChord (fun k => { k with cnt := updN k.cnt i (fun _ => v) })
    else if b = blkGov then s.onGov (fun k => { k with cnt := updN k.cnt i (fun _ => v) })
    else if b = blkFhub then s.onHub (fun k => { k with overwrite := v })
    else if b = blkMetr then s.onMetr (fun k => { k with cnt := updN k.cnt i (fun _ => v) })
    else if b = blkCres then s.onCres (fun k => { k with cnt := updN k.cnt i (fun _ => v) })
    else if b = blkRstc then s.onRst (fun k => { k with cnt := updN k.cnt i (fun _ => v) })
    else if b = blkHmbx then s.onHmbx (fun k => { k with cnt := updN k.cnt i (fun _ => v) })
    else s.onMirl (fun k => { k with cnt := updN k.cnt i (fun _ => v) })

/-- An event counted by a 32-bit counter (R15). -/
def State.cntEvent (s : State) (b : BlkId) (i : Nat) : State :=
  (s.cntPut b i (s.cntGet b i + 1)).ovf b (firstOvf b + i) (wraps (s.cntGet b i) 1)

/-- The 64-bit counters: TRK RX_REC and TX_CMD, GOV REL_CMD, MIRL TX_PKT and RX_PKT; by block and low offset. -/
def isWide (b : BlkId) (o : Nat) : Bool :=
  if (trkOfBlk b).isSome || b = blkMirl then o == 0x40 || o == 0x50 else b == blkGov && o == 0x50

/-- A 64-bit counter's value. -/
def State.wideGet (s : State) (b : BlkId) (o : Nat) : BitVec 64 :=
  match trkOfBlk b with
  | some t => if o = 0x40 then s.trk[t].rxRec else s.trk[t].txCmd
  | none => if b = blkGov then s.gov.relCmd else if o = 0x40 then s.mirl.txPkt else s.mirl.rxPkt

/-- A 64-bit counter changed. -/
def State.widePut (s : State) (b : BlkId) (o : Nat) (v : BitVec 64) : State :=
  match trkOfBlk b with
  | some t => s.onTrk t (fun k => if o = 0x40 then { k with rxRec := v } else { k with txCmd := v })
  | none =>
    if b = blkGov then s.onGov (fun g => { g with relCmd := v })
    else s.onMirl (fun m => if o = 0x40 then { m with txPkt := v } else { m with rxPkt := v })

/-- An event counted by a 64-bit counter (R15). -/
def State.wideEvent (s : State) (b : BlkId) (o : Nat) : State :=
  (s.widePut b o (s.wideGet b o + 1)).ovf b (if o = 0x40 then 0 else if b = blkGov then 0 else 1)
    (s.wideGet b o == BitVec.allOnes 64)

/-! ## Reads -/

/-- The word at an offset of a list of native words that starts at `base`. -/
def inWords (base : Nat) (ws : List Native) (o : Nat) : Option Word :=
  if base ≤ o ∧ o < base + 16 * ws.length then some (laneOf (ws[(o - base) / 16]?.getD 0) ((o - base) / 4 % 4)) else none

/-- The common header (Table 01-2); 0x0014 to 0x001C are reserved registers. -/
def State.readHdr (s : State) (b : BlkId) (o : Nat) : Word :=
  let h := s.hdr[b]
  (List.lookup o [
    (0x00, place 32 16 (BitVec.ofNat 16 b.val) ||| place 32 0 (Config.blkStep b.val)),
    (0x04, place 32 0 (bit h.hwlost) ||| place 32 1 (bit (h.cntOvf != 0)) ||| place 32 2 (bit h.rsvdAcc) |||
      place 32 3 (bit h.sync)),
    (0x08, place 32 0 (bit h.sync)),
    (0x0C, place 32 0 h.hwlostSrc),
    (0x10, h.cntOvf)]).getD 0

/-- A popped log's registers: its oldest entry at `o0`, DEPTH and LOST 16 bytes above (R102). -/
def readLog (l : PopLog) (o0 o : Nat) : Option Word :=
  if o = o0 + 0x10 then some (place 32 0 (BitVec.ofNat 8 l.entries.length) ||| place 32 8 (bit l.lost))
  else inWords o0 [l.entries.head?.getD 0] o

/-- VETO_TX: heartbeats leave with VETO set (Table 03-1, Table 03-10). -/
def State.vetoTx (s : State) (t : TrkId) : Bool := s.sends t && (s.gov.state == .fermata || s.trk[t].veto)

/-- TRK_n (Table 03-11). -/
def State.readTrk (s : State) (t : TrkId) (o : Nat) : Option Word :=
  let k := s.trk[t]
  let i := (o - 0x100) / 16
  List.lookup o [
    (0x20, place 32 0 (bit k.enable) ||| place 32 1 (bit k.relink) ||| place 32 2 (bit k.loopback)),
    (0x24, place 32 0 k.concExpect ||| place 32 8 k.retryRes ||| place 32 16 k.maxNak),
    (0x28, place 32 0 (linkNumber k.link) ||| place 32 8 k.concFound ||| place 32 16 (bit (s.gov.zone.getLsbD t.val)) |||
      place 32 17 (bit (s.vetoTx t))),
    (0x2C, k.event.setWidth 32), (0x30, k.irqEn.setWidth 32), (0x34, place 32 9 k.routeBase), (0x38, k.concLost)]
  <|> (if 0x100 ≤ o ∧ o < 0x200 then
        List.lookup (o % 16) [(0, (getN k.sentVmax i 0).setWidth 32), (4, (getN k.sentVmin i 0).setWidth 32),
          (8, (getN k.sentTmax i 0).setWidth 32)]
      else none)
  <|> readLog k.urgLog 0x200 o

/-- MEMC (Table 04-11). -/
def State.readMemc (s : State) (o : Nat) : Option Word :=
  let k := s.memc
  List.lookup o [
    (0x20, place 32 0 (bit k.injGo) ||| place 32 1 k.injKind), (0x24, place 32 4 k.injAddr),
    (0x28, place 32 0 k.injBit ||| place 32 16 k.injAbit)]
  <|> readLog k.ceLog 0x100 o <|> readLog k.ueLog 0x120 o

/-- OSTI (Table 04-10). -/
def State.readOsti (s : State) (o : Nat) : Option Word :=
  let k := s.osti
  List.lookup o [
    (0x20, place 32 0 (bit k.enable)), (0x24, k.pace.setWidth 32), (0x28, k.passLimit.setWidth 32),
    (0x2C, place 32 0 k.region ||| place 32 16 (bit k.save.isSome)),
    (0x30, place 32 0 k.whereAddr ||| place 32 24 k.whereMem), (0x34, k.lastPass)]

/-- PLAN_m as its four lanes (Table 05-7). -/
def planLanes (p : Plan) : List Native :=
  [p.owners, place 128 0 p.sweep ||| place 128 16 p.shed ||| place 128 32 (bit p.valid)]

/-- OUT_INFO_n (Table 05-7). -/
def OutInfo.word (i : OutInfo) : Word :=
  place 32 0 i.cause ||| place 32 3 i.comp ||| place 32 5 i.frame ||| place 32 21 i.segment ||| place 32 26 i.count

/-- UNIS (Table 05-7). -/
def State.readUnis (s : State) (o : Nat) : Option Word :=
  let u := s.unis
  let m := (o - 0x200) / 0x20
  List.lookup o [
    (0x20, place 32 0 (bit u.rejoin) ||| place 32 4 (BitVec.ofNat 2 u.rejoinV.val) ||| place 32 20 (BitVec.ofNat 2 u.outV.val)),
    (0x24, place 32 0 u.alive ||| place 32 8 u.stwMasked ||| place 32 11 (bit u.stwDegraded) ||| place 32 16 u.probeIdx),
    (0x28, u.event.setWidth 32), (0x2C, u.irqEn.setWidth 32), (0x30, place 32 10 u.chmapBase), (0x34, u.chmapCrc),
    (0x38, place 32 0 u.planMask ||| place 32 4 s.metr.sweep ||| place 32 16 u.planShed),
    (0x40, u.out[0].word), (0x44, u.out[1].word), (0x48, u.out[2].word), (0x4C, u.out[3].word)]
  <|> (if 0x50 ≤ o ∧ o < 0x90 ∧ o % 16 < 8 then
        some (half (getN u.out ((o - 0x50) / 16) ⟨0, 0, 0, 0, 0, 0⟩).time (o % 8 == 4)) else none)
  <|> (if 0x90 ≤ o ∧ o < 0xB0 then some (half (getN u.rehome ((o - 0x90) / 8) 0) (o % 8 == 4)) else none)
  <|> inWords 0x100 [u.owner] o
  <|> (if 0x220 ≤ o ∧ o < 0x400 ∧ o % 0x20 < 0x18 then
        inWords (0x200 + 0x20 * m) (planLanes (getN u.plan m ⟨0, 0, 0, false⟩)) o else none)

/-- CHORD (Table 08-8). -/
def State.readChord (s : State) (o : Nat) : Option Word :=
  let h := s.chord
  let k := getN h.slice ((o - 0x30) / 16) .reset
  List.lookup o [
    (0x20, place 32 0 (bit h.flush) ||| place 32 8 h.flushMask), (0x24, h.event.setWidth 32), (0x28, h.irqEn.setWidth 32),
    (0x2C, place 32 0 h.dead ||| place 32 8 (bit (h.reclaiming != 0)))]
  <|> (if 0x30 ≤ o ∧ o < 0x70 then
        List.lookup (o % 16) [
          (0, place 32 0 k.modeReq ||| place 32 4 (bit k.quiesce) ||| place 32 8 (bit k.flushing)),
          (4, place 32 0 (modeNumber k.mode) ||| place 32 4 (bit k.idle) ||| place 32 5 (bit k.tmFailed) |||
            place 32 6 (bit k.vdFailed) ||| place 32 8 (BitVec.ofNat 6 k.txns.length) |||
            place 32 16 (BitVec.ofNat 10 k.vd.length))]
      else none)
  <|> readLog h.lostLog 0x100 o

/-- CLAMP_k as reads return it: the live entry with FAILED (Table 09-5). -/
def Gov.clampWord (g : Gov) (k : Nat) : Native :=
  putBit (getN g.clamp k zeroCell).deliver.1 104 (g.clampFailed.getLsbD k)

/-- GOV (Table 09-9). -/
def State.readGov (s : State) (o : Nat) : Option Word :=
  let g := s.gov
  List.lookup o [
    (0x20, place 32 0 (govNumber g.state) ||| place 32 4 (bit s.armIn) ||| place 32 5 (bit (!(s.aon.estopA && s.aon.estopB))) |||
      place 32 6 (bit g.commitWin) ||| place 32 7 (bit g.stage.isSome) ||| place 32 8 g.epoch ||| place 32 16 g.zone),
    (0x24, place 32 3 (bit (s.rst.opt.role == .a && s.mirl.going.isSome))), (0x28, g.nonce), (0x2C, g.echo), (0x30, g.result.setWidth 32), (0x34, g.rate.setWidth 32),
    (0x38, g.rideFrames.setWidth 32), (0x3C, g.clampCrcExp), (0x40, g.zoneTrip.setWidth 32), (0x44, g.event.setWidth 32),
    (0x48, g.irqEn.setWidth 32)]
  <|> inWords 0x90 [g.lastBlocked] o
  <|> inWords 0x100 ((List.range 16).map g.clampWord) o

/-- FHUB (Table 09-10). -/
def State.readFhub (s : State) (o : Nat) : Option Word :=
  let h := s.hub
  let n := (o - 0x40) / 4
  List.lookup o [
    (0x20, place 32 16 h.injSrc), (0x24, place 32 0 h.escN ||| place 32 16 h.escWin),
    (0x28, place 32 0 h.head ||| place 32 6 (bit (decide (64 ≤ h.order.length))) ||| place 32 8 h.maxClass)]
  <|> (if 0x40 ≤ o ∧ o < 0x40 + 4 * 60 then
        (FaultSource.ofId n).map (fun src =>
          place 32 0 (getN h.cls n 0) ||| place 32 4 (getN s.rst.fuses.floor n 0) |||
            place 32 8 (BitVec.ofNat 3 (s.effective src).toNat))
      else none)
  <|> (if 0x200 ≤ o ∧ o < 0x600 then some (laneOf (getN h.log ((o - 0x200) / 16) 0) (o / 4 % 4)) else none)

/-- METR (Table 10-7). -/
def State.readMetr (s : State) (o : Nat) : Option Word :=
  let m := s.metr
  List.lookup o [
    (0x20, 0), (0x24, place 32 0 m.sweepSel ||| place 32 16 m.warnLead), (0x28, m.wdogMs.setWidth 32),
    (0x2C, place 32 0 (bit m.refOk) ||| place 32 1 (bit m.rcFallback) ||| place 32 2 (bit (m.ltAdj != 0)) |||
      place 32 3 (bit m.stepRefused) ||| place 32 16 m.sweep),
    (0x30, half m.lineTime false), (0x34, half m.lineTime true), (0x40, half m.ltSet false), (0x44, half m.ltSet true),
    (0x48, m.ltAdj), (0x4C, m.frameNow.setWidth 32)]

/-- CRES (Table 10-8). -/
def State.readCres (s : State) (o : Nat) : Option Word :=
  let c := s.cres
  List.lookup o [
    (0x20, c.budget.setWidth 32),
    (0x24, place 32 0 (seasonNumber c.season) ||| place 32 8 (bit c.lineKeep) ||| place 32 16 c.sleepDelay),
    (0x28, place 32 0 (BitVec.ofNat 10 s.usedPu)), (0x2C, requesterMap c.grants),
    (0x30, requesterMap (c.waiting.map (·.id))), (0x34, c.event.setWidth 32), (0x38, c.maxWait.setWidth 32)]

/-- REACH: 4 bits a source, 0xF for none (Table 11-17). -/
def State.reachWord (s : State) : BitVec 64 :=
  (List.finRange 10).foldl (fun w i =>
    w ||| place 64 (4 * i.val) (match s.reach i with | some l => BitVec.ofNat 4 l.toNat | none => (0xF : BitVec 4))) 0

/-- GO of RST_REQ: a request of source 4 or 9 is not yet applied. -/
def State.reqGo (s : State) : Bool := s.rst.requests.any (fun q => q.src == 4 || q.src == 9)

/-- RSTC (Table 11-17). -/
def State.readRstc (s : State) (o : Nat) : Option Word :=
  let r := s.rst
  List.lookup o [
    (0x20, place 32 0 r.reqLevel ||| place 32 8 r.reqTarget ||| place 32 16 (bit s.reqGo)),
    (0x24, place 32 0 r.lastSrc ||| place 32 4 r.lastLevel ||| place 32 8 r.lastTarget ||| place 32 16 (bit r.busy) |||
      place 32 17 (bit r.refused) ||| place 32 18 (bit r.warm)),
    (0x28, r.cause.setWidth 32), (0x2C, place 32 0 (bit s.gov.riding) ||| place 32 1 s.gov.unjudged),
    (0x30, place 32 0 (bit s.govIdle) ||| place 32 1 (bit s.fhubIdle)), (0x34, place 32 0 r.attempts ||| place 32 4 (bit r.coda)),
    (0x40, half s.reachWord false), (0x44, half s.reachWord true),
    (0x50, place 32 0 r.bistSlices ||| place 32 8 (bit r.bistManual)), (0x60, r.sealed.setWidth 32),
    (0x70, r.warmCrc[0]), (0x74, r.warmCrc[1]), (0x78, r.warmCrc[2]), (0x7C, r.warmCrc[3])]
  <|> inWords 0x100 s.bootWords o

/-- HMBX (Table 12-12). -/
def State.readHmbx (s : State) (o : Nat) : Option Word :=
  let h := s.hmbx
  List.lookup o [
    (0x20, place 32 1 (bit h.ready) ||| place 32 2 (bit h.coda) ||| place 32 3 (bit h.bootWait)),
    (0x24, h.busyTag.setWidth 32), (0x30, 0), (0x34, 0), (0x38, 0), (0x3C, 0)]

/-- MIRL (Table 13-5). -/
def State.readMirl (s : State) (o : Nat) : Option Word :=
  let m := s.mirl
  List.lookup o [
    (0x20, place 32 0 (bit m.enable) ||| place 32 1 (bit m.relink)),
    (0x24, place 32 0 (pairNumber m.pair) ||| place 32 4 (bit m.linkUp) ||| place 32 5 (bit m.peer) ||| place 32 8 m.peerEpoch),
    (0x28, m.event.setWidth 32), (0x2C, m.irqEn.setWidth 32), (0x30, place 32 19 m.mirrorBase), (0x34, m.offset),
    (0x38, match m.session with
      | some x => place 32 0 (if x.outgoing then (1 : BitVec 2) else 2) ||| place 32 4 x.kind
      | none => 0)]

/-- Registers that the spec names a block for and does not describe (SYSCTL but for ARB_CFG, XSPI, GPIO, AMON, FUSE, LCYC but
for LC_STATE): a read gives a free value (log 36). -/
def undescribed (b : BlkId) (o : Nat) : Bool :=
  decide (0x20 ≤ o) && ((b == blkSysctl && o != 0x80) || b == blkXspi || b == blkGpio || b == blkAmon || b == blkFuse ||
    (b == blkLcyc && o != 0x20))

/-- A block's own registers, counters apart. -/
def State.readOwn (s : State) (b : BlkId) (o : Nat) : Option Word :=
  match trkOfBlk b with
  | some t => s.readTrk t o
  | none =>
    if b = blkMemc then s.readMemc o else if b = blkOsti then s.readOsti o else if b = blkUnis then s.readUnis o
    else if b = blkChord then s.readChord o else if b = blkGov then s.readGov o else if b = blkFhub then s.readFhub o
    else if b = blkMetr then s.readMetr o else if b = blkCres then s.readCres o else if b = blkRstc then s.readRstc o
    else if b = blkHmbx then s.readHmbx o else if b = blkMirl then s.readMirl o
    else if b = blkSysctl && o == 0x80 then some (s.arbCfg.setWidth 32)
    else if b = blkLcyc && o == 0x20 then some ((lcNumber s.rst.lc).setWidth 32)
    else none

/-- A register's live value; none at an unimplemented offset (R11). -/
def State.readReg (s : State) (b : BlkId) (o : Nat) : Option Word :=
  if (match trkOfBlk b with | some t => !s.populated t | none => false) then some 0
  else if o < 0x20 then some (s.readHdr b o)
  else if isWide b o then some (half (s.wideGet b o) false)
  else if 4 ≤ o ∧ isWide b (o - 4) then some (half (s.wideGet b (o - 4)) true)
  else match counterAt b o with
  | some i => some (s.cntGet b i)
  | none => if undescribed b o then some (laneOf (Config.freeNative s.free) (o / 4 % 4)) else s.readOwn b o

/-! ## Access checks (R6, R76) -/

/-- The block and offset of a register-space address. -/
def periphOf (a : Nat) : Option (BlkId × Nat) :=
  match regionOf stw a with
  | .periph b o => some (b, o)
  | _ => none

/-- The offsets that an access of a width covers. -/
def lanesAt (o : Nat) (sz : Size) : List Nat := if sz = .b16 then [o, o + 4, o + 8, o + 12] else [o]

/-- The data of lane `k` of an access. -/
def laneData (sz : Size) (x : Native) (k : Nat) : Word := if sz = .b16 then laneOf x k else laneOf x 0

/-- RSVD_ACC: the access covers an unimplemented offset (R11). -/
def State.noteReserved (s : State) (b : BlkId) (o : Nat) (sz : Size) : State :=
  s.when ((lanesAt o sz).any (fun x => (s.readReg b x).isNone)) (·.onHdr b (fun h => { h with rsvdAcc := true }))

/-- Who may write a block: the Steward, except LCYC, and FUSE while it runs its ROM only; JTAG only RST_REQ, in FACTORY and DEVELOP
(R76, R293). The Steward runs the ROM or Drunor, so XSPI is open to it always. -/
def State.mayWrite (s : State) (i : Initiator) (b : BlkId) (o : Nat) (sz : Size) : Bool :=
  match i with
  | .steward => b != blkLcyc && (b != blkFuse || !s.rst.drunor)
  | .jtag => (s.rst.lc == .factory || s.rst.lc == .develop) && b == blkRstc && o == 0x20 && sz == .b4
  | _ => false

/-! ## Loads (R7, R8, R102) -/

/-- A log that a 128-bit read at an offset pops. -/
def State.popAt (s : State) (b : BlkId) (o : Nat) : State :=
  match trkOfBlk b with
  | some t => s.when (o == 0x200 && s.populated t) (·.onTrk t (fun k => { k with urgLog := k.urgLog.pop }))
  | none =>
    if b = blkMemc && o == 0x100 then s.onMemc (fun m => { m with ceLog := m.ceLog.pop })
    else if b = blkMemc && o == 0x120 then s.onMemc (fun m => { m with ueLog := m.ueLog.pop })
    else if b = blkChord && o == 0x100 then s.onChord (fun h => { h with lostLog := h.lostLog.pop })
    else s

/-- Offsets with a snapshot: the 64-bit counters and LINE_TIME (R8, Table 10-7). -/
def snapAt (b : BlkId) (o : Nat) : Bool := isWide b o || (b == blkMetr && o == 0x30)

/-- What a 32-bit read returns: the initiator's snapshot of a high half, else the live value. -/
def State.readSnap (s : State) (i : Initiator) (b : BlkId) (o : Nat) : Word :=
  match s.snaps.find? (fun x => x.init == i && x.blk == b && x.off + 4 == o) with
  | some x => x.hi
  | none => (s.readReg b o).getD 0

/-- A load of register space: the state after it, the data, and whether it ends with a bus error. One that ends so is no access of
the block: the initiator's snapshots stay (R8; DESIGN CHOICE, log 53). -/
def State.regLoad (s : State) (i : Initiator) (b : BlkId) (o : Nat) (sz : Size) : State × Native × Bool :=
  if !acceptsReg o sz || !s.mayRead i then (s, 0, true)
  else
    let s1 := (s.touchBlk i b).noteReserved b o sz
    let s2 := s1.when (undescribed b o) State.fresh
    if sz = .b16 then
      let d := ((lanesAt o sz).zipIdx).foldl (fun w x => w ||| place 128 (32 * x.2) ((s.readReg b x.1).getD 0)) (0 : Native)
      (s2.popAt b o, d, false)
    else
      let s3 := if snapAt b o then
          { s2 with snaps := s2.snaps ++ [⟨i, b, o, (s.readReg b (o + 4)).getD 0⟩] }
        else s2
      (s3, (s.readSnap i b o).setWidth 128, false)

/-! ## Stores: RW, W1C and CNT fields -/

/-- Bits cleared by writing ones (W1C). -/
def w1c {n : Nat} (old : BitVec n) (w : Word) : BitVec n := old &&& ~~~ (w.setWidth n)

/-- A popped log's LOST bit, W1C. -/
def PopLog.clearLost (l : PopLog) (w : Word) : PopLog := { l with lost := l.lost && !w.getLsbD 8 }

/-- BLK_STATUS and CNT_OVF (Table 01-2). -/
def State.writeHdr (s : State) (b : BlkId) (o : Nat) (w : Word) : State :=
  if o = 0x04 then s.onHdr b (fun h => { h with hwlost := h.hwlost && !w.getLsbD 0, rsvdAcc := h.rsvdAcc && !w.getLsbD 2 })
  else if o = 0x10 then s.onHdr b (fun h => { h with cntOvf := w1c h.cntOvf w })
  else s

def State.writeTrk (s : State) (t : TrkId) (o : Nat) (w : Word) : State :=
  match o with
  | 0x20 =>
    let s1 := s.onTrk t (fun k => { k with loopback := w.getLsbD 2 })
    if w.getLsbD 0 then s1.trkEnable t else if s.trk[t].enable then s1.trkDisable t else s1
  | 0x24 => s.onTrk t (fun k => { k with concExpect := field w 0 6, retryRes := field w 8 8, maxNak := field w 16 2 })
  | 0x2C => s.onTrk t (fun k => { k with event := w1c k.event w })
  | 0x30 => s.onTrk t (fun k => { k with irqEn := field w 0 10 })
  | 0x34 => s.onTrk t (fun k => { k with routeBase := field w 9 23 })
  | 0x38 => s.onTrk t (fun k => { k with concLost := w1c k.concLost w })
  | 0x210 => s.onTrk t (fun k => { k with urgLog := k.urgLog.clearLost w })
  | _ => s

def State.writeMemc (s : State) (o : Nat) (w : Word) : State :=
  match o with
  | 0x20 => s.onMemc (fun m => { m with injKind := field w 1 3 })
  | 0x24 => s.onMemc (fun m => { m with injAddr := field w 4 28 })
  | 0x28 => s.onMemc (fun m => { m with injBit := field w 0 7, injAbit := field w 16 5 })
  | 0x110 => s.onMemc (fun m => { m with ceLog := m.ceLog.clearLost w })
  | 0x130 => s.onMemc (fun m => { m with ueLog := m.ueLog.clearLost w })
  | _ => s

/-- A write of 0 to ENABLE is ignored in DEPLOYED (Table 04-10). -/
def State.writeOsti (s : State) (o : Nat) (w : Word) : State :=
  match o with
  | 0x20 => s.onOsti (fun k => { k with enable := w.getLsbD 0 || (k.enable && s.rst.lc == .deployed) })
  | 0x24 => s.onOsti (fun k => { k with pace := field w 0 10 })
  | 0x28 => s.onOsti (fun k => { k with passLimit := field w 0 8 })
  | _ => s

def State.writeUnis (s : State) (o : Nat) (w : Word) : State :=
  match o with
  | 0x20 => s.onUnis (fun u => { u with
      rejoinV := ⟨(field w 4 2).toNat, (field w 4 2).isLt⟩, outV := ⟨(field w 20 2).toNat, (field w 20 2).isLt⟩ })
  | 0x28 => s.onUnis (fun u => { u with event := w1c u.event w })
  | 0x2C => s.onUnis (fun u => { u with irqEn := field w 0 12 })
  | 0x30 => s.onUnis (fun u => { u with chmapBase := field w 10 22 })
  | _ => s

def State.writeChord (s : State) (o : Nat) (w : Word) : State :=
  match o with
  | 0x20 => s.onChord (fun h => { h with flushMask := field w 8 5 })
  | 0x24 => s.onChord (fun h => { h with event := w1c h.event w })
  | 0x28 => s.onChord (fun h => { h with irqEn := field w 0 8 })
  | 0x110 => s.onChord (fun h => { h with lostLog := h.lostLog.clearLost w })
  | _ =>
    if h : 0x30 ≤ o ∧ o < 0x70 ∧ o % 16 = 0 then
      let i : SliceId := ⟨(o - 0x30) / 16, by omega⟩
      (s.modeReq i (field w 0 2)).onSlice i (fun k => { k with quiesce := w.getLsbD 4 })
    else s

def State.writeGov (s : State) (o : Nat) (w : Word) : State :=
  match o with
  | 0x28 => s.onGov (fun g => { g with nonce := w })
  | 0x3C => s.onGov (fun g => { g with clampCrcExp := w })
  | 0x44 => s.onGov (fun g => { g with event := w1c g.event w })
  | 0x48 => s.onGov (fun g => { g with irqEn := field w 0 4 })
  | _ => s

def State.writeFhub (s : State) (o : Nat) (w : Word) : State :=
  if o = 0x20 then s.onHub (fun h => { h with injSrc := field w 16 6 }) else s

def State.writeMetr (s : State) (o : Nat) (w : Word) (hw : Bool) : State :=
  match o with
  | 0x24 => s.onMetr (fun m => { m with warnLead := field w 16 10 })
  | 0x28 => s.onMetr (fun m => { m with wdogMs := field w 0 8 })
  | 0x2C => s.onMetr (fun m => { m with stepRefused := m.stepRefused && !w.getLsbD 3 })
  | 0x40 => s.onMetr (fun m => { m with ltSet := putField m.ltSet 0 w })
  | 0x44 => s.onMetr (fun m => { m with ltSet := putField m.ltSet 32 w })
  | 0x48 => s.ltAdjWrite w hw
  | _ => s

/-- A budget below 560 PU is clipped (R250). -/
def State.writeCres (s : State) (o : Nat) (w : Word) : State :=
  match o with
  | 0x20 => (s.onCres (fun c => { c with budget := field w 0 10 })).when (decide ((field w 0 10).toNat < 560)) (·.evCres .budgetClipped)
  | 0x24 => s.onCres (fun c => { c with lineKeep := w.getLsbD 8, sleepDelay := field w 16 10 })
  | 0x34 => s.onCres (fun c => { c with event := w1c c.event w })
  | _ => s

def State.writeRstc (s : State) (o : Nat) (w : Word) : State :=
  match o with
  | 0x20 => s.onRst (fun r => { r with reqLevel := field w 0 3, reqTarget := field w 8 8 })
  | 0x24 => s.onRst (fun r => { r with refused := r.refused && !w.getLsbD 17 })
  | 0x28 => s.onRst (fun r => { r with cause := w1c r.cause w })
  | 0x50 => s.onRst (fun r => { r with bistSlices := field w 0 8 })
  | _ => s

def State.writeHmbx (s : State) (o : Nat) (w : Word) (hw : Bool) : State :=
  match o with
  | 0x20 => (s.onHmbx (fun h => { h with ready := w.getLsbD 1, coda := w.getLsbD 2, bootWait := w.getLsbD 3 })).when hw
      (·.setHwlost blkHmbx 0x20)
  | _ => s

def State.writeMirl (s : State) (o : Nat) (w : Word) : State :=
  match o with
  | 0x20 => s.mirlSetEnable (w.getLsbD 0)
  | 0x28 => s.onMirl (fun m => { m with event := w1c m.event w })
  | 0x2C => s.onMirl (fun m => { m with irqEn := field w 0 8 })
  | 0x30 => s.onMirl (fun m => { m with mirrorBase := field w 19 13 })
  | _ => s

/-! ## Commit tables (R208) -/

/-- A register with a commit-table field. -/
def commitReg (b : BlkId) (o : Nat) : Bool :=
  if (trkOfBlk b).isSome then decide (0x100 ≤ o) && decide (o < 0x200) && o % 16 != 12
  else if b = blkGov then o == 0x34 || o == 0x38 || (decide (0x100 ≤ o) && decide (o < 0x200))
  else if b = blkFhub then o == 0x24 || (decide (0x40 ≤ o) && decide (o < 0x40 + 4 * 60))
  else if b = blkUnis then decide (0x220 ≤ o) && decide (o < 0x400) && decide (o % 0x20 < 0x18)
  else b == blkMetr && o == 0x24

/-- The RW bits of a clamp entry (Table 09-5). -/
def clampMask : Native :=
  place 128 0 (BitVec.allOnes 20) ||| place 128 32 (BitVec.allOnes 24) ||| place 128 64 (BitVec.allOnes 24) ||| place 128 96 (1 : BitVec 1)

/-- A native word with one of its four registers replaced. -/
def putLane (x : Native) (k : Nat) (w : Word) : Native := putField x (32 * k) w

/-- A plan with one of its registers replaced. -/
def planPut (p : Plan) (o : Nat) (w : Word) : Plan :=
  let k := o % 0x20 / 4
  if k < 4 then { p with owners := putLane p.owners k w }
  else if k = 4 then { p with sweep := field w 0 2, shed := field w 16 16 }
  else { p with valid := w.getLsbD 0 }

/-- A write to a commit-table field inside the window: it reaches staging. -/
def State.stageReg (s : State) (b : BlkId) (o : Nat) (w : Word) : State :=
  let i := (o - 0x100) / 16
  match trkOfBlk b with
  | some t =>
    s.onTrk t (fun k => match o % 16 with
      | 0 => { k with sentVmaxS := updN k.sentVmaxS i (fun _ => field w 0 20) }
      | 4 => { k with sentVminS := updN k.sentVminS i (fun _ => field w 0 20) }
      | _ => { k with sentTmaxS := updN k.sentTmaxS i (fun _ => field w 0 12) })
  | none =>
    if b = blkGov then
      s.onGov (fun g =>
        if o = 0x34 then { g with rateStaged := field w 0 11 }
        else if o = 0x38 then { g with rideFramesS := field w 0 2 }
        else { g with clampStaged := updN g.clampStaged i (fun x => putLane x (o / 4 % 4) w &&& clampMask) })
    else if b = blkFhub then
      s.onHub (fun h =>
        if o = 0x24 then { h with escNS := field w 0 4, escWinS := field w 16 16 }
        else { h with clsStaged := updN h.clsStaged ((o - 0x40) / 4) (fun _ => field w 0 3) })
    else if b = blkUnis then
      s.onUnis (fun u => { u with planStaged := updN u.planStaged ((o - 0x200) / 0x20) (fun p => planPut p o w) })
    else s.onMetr (fun m => { m with sweepSelS := field w 0 2 })

/-! ## TABLE_SYNC (R14, R19) -/

/-- A block with cached tables: the trunk engines and UNIS. -/
def synced (b : BlkId) : Bool := (trkOfBlk b).isSome || b == blkUnis

/-- A synchronization starts; UNIS records the CRC of the map it reloads (R118). -/
def State.startSync (s : State) (b : BlkId) : State :=
  s.when (b == blkUnis) (fun s => s.onUnis (fun u => { u with chmapCrc := crc32cWords s.mapNow.2.1, mapHeld := false }))

/-- SYNC written: it starts, or is held while another runs (R14); a third one is merged with the held one (DESIGN CHOICE, log 79). A
block without a cached table ignores it. -/
def State.tableSync (s : State) (b : BlkId) : State :=
  if !synced b || (match trkOfBlk b with | some t => !s.populated t | none => false) then s
  else if s.hdr[b].sync then s.onHdr b (fun h => { h with syncHeld := true })
  else (s.onHdr b (fun h => { h with sync := true })).startSync b

def execTableSync (b : BlkId) (s : State) : Out := .next ((s.stewWrite b).tableSync b)

/-- The cached copies reloaded (R19); CHMAP_CRC is compared at the next boundary (R120). -/
def State.reloadTables (s : State) (b : BlkId) : State :=
  match trkOfBlk b with
  | some t => s.routeReload t
  | none => let (s1, ws, _) := s.mapNow; s1.loadMap ws

/-- The reload completes: SYNC clears, or the held request starts without a gap (R14). -/
def execTableSyncDone (b : BlkId) (s : State) : Out :=
  if !s.hdr[b].sync then .next s
  else
    let s1 := s.reloadTables b
    if s.hdr[b].syncHeld then .next ((s1.onHdr b (fun h => { h with syncHeld := false })).startSync b)
    else .next (s1.onHdr b (fun h => { h with sync := false }))

/-! ## Stores: W1S commands -/

/-- GOV_CMD: each bit a command, ascending (Table 09-9). -/
def State.govCmd (s : State) (w : Word) : State :=
  s.each (setBits (field w 0 7)) (fun i s => match i with
    | 0 => s.govArm | 1 => s.govDisarm | 2 => s.govStage | 3 => s.govConfirm | 4 => s.govClear | 5 => s.commitOpen
    | _ => s.commitClose)

/-- The commands that a write of a register issues, after every field of the access has its value. -/
def State.cmdReg (s : State) (i : Initiator) (b : BlkId) (o : Nat) (w : Word) : State :=
  let on := fun (n : Nat) (f : State → State) (s : State) => s.when (w.getLsbD n) f
  if o = 0x08 then on 0 (·.tableSync b) s
  else match trkOfBlk b with
  | some t => if o = 0x20 then on 1 (·.trkRelink t) s else s
  | none =>
    if b = blkMemc && o == 0x20 then on 0 State.injArm s
    else if b = blkUnis && o == 0x20 then on 16 State.outReq (on 0 State.rejoinReq s)
    else if b = blkChord && o == 0x20 then on 0 (fun s => s.startFlush s.chord.flushMask) s
    else if h : b = blkChord ∧ 0x30 ≤ o ∧ o < 0x70 ∧ o % 16 = 0 then
      on 8 (·.startSliceFlush ⟨(o - 0x30) / 16, by omega⟩) s
    else if b = blkGov && o == 0x24 then s.govCmd w
    else if b = blkFhub && o == 0x20 then on 8 State.fhInject (on 0 State.logClr s)
    else if b = blkMetr && o == 0x20 then on 1 State.kick (on 0 State.ltStep s)
    else if b = blkRstc && o == 0x20 then on 16 (·.rstReqGo (if i = .jtag then 9 else 4)) s
    else if b = blkRstc && o == 0x50 then on 8 State.bistReq s
    else if b = blkRstc && o == 0x60 then s.itcmSeal (field w 0 4)
    else if b = blkHmbx && o == 0x20 then on 0 (·.hmbxDone) s
    else if b = blkMirl && o == 0x20 then on 1 State.mirlRelink s
    else s

/-! ## Hardware updates of the same cycle (Table 01-3) -/

/-- W1C bits that hardware sets; an enabled event interrupts the Steward. -/
def State.hwSet (s : State) (b : BlkId) (o : Nat) (w : Word) : State :=
  let irq := fun (s : State) (en : Word) => s.when (w &&& en != 0) (·.stewIrq b)
  if o = 0x04 then s.onHdr b (fun h => { h with hwlost := h.hwlost || w.getLsbD 0, rsvdAcc := h.rsvdAcc || w.getLsbD 2 })
  else if o = 0x10 then s.onHdr b (fun h => { h with cntOvf := h.cntOvf ||| w })
  else match trkOfBlk b with
  | some t =>
    if o = 0x2C then irq (s.onTrk t (fun k => { k with event := k.event ||| w.setWidth 10 })) (s.trk[t].irqEn.setWidth 32)
    else if o = 0x38 then s.onTrk t (fun k => { k with concLost := k.concLost ||| w })
    else if o = 0x210 then s.onTrk t (fun k => { k with urgLog := { k.urgLog with lost := k.urgLog.lost || w.getLsbD 8 } })
    else s
  | none =>
    if b = blkMemc && o == 0x110 then s.onMemc (fun m => { m with ceLog := { m.ceLog with lost := m.ceLog.lost || w.getLsbD 8 } })
    else if b = blkMemc && o == 0x130 then
      s.onMemc (fun m => { m with ueLog := { m.ueLog with lost := m.ueLog.lost || w.getLsbD 8 } })
    else if b = blkUnis && o == 0x28 then
      irq (s.onUnis (fun u => { u with event := u.event ||| w.setWidth 12 })) (s.unis.irqEn.setWidth 32)
    else if b = blkChord && o == 0x24 then
      irq (s.onChord (fun h => { h with event := h.event ||| w.setWidth 8 })) (s.chord.irqEn.setWidth 32)
    else if b = blkChord && o == 0x110 then
      s.onChord (fun h => { h with lostLog := { h.lostLog with lost := h.lostLog.lost || w.getLsbD 8 } })
    else if b = blkGov && o == 0x44 then
      irq (s.onGov (fun g => { g with event := g.event ||| w.setWidth 4 })) (s.gov.irqEn.setWidth 32)
    else if b = blkMetr && o == 0x2C then s.onMetr (fun m => { m with stepRefused := m.stepRefused || w.getLsbD 3 })
    else if b = blkCres && o == 0x34 then s.onCres (fun c => { c with event := c.event ||| w.setWidth 3 })
    else if b = blkRstc && o == 0x24 then s.onRst (fun r => { r with refused := r.refused || w.getLsbD 17 })
    else if b = blkRstc && o == 0x28 then s.onRst (fun r => { r with cause := r.cause ||| w.setWidth 10 })
    else if b = blkMirl && o == 0x28 then
      irq (s.onMirl (fun m => { m with event := m.event ||| w.setWidth 8 })) (s.mirl.irqEn.setWidth 32)
    else s

/-- The hardware's update of a register: an event counted after the software's value, or bits set. -/
def State.hwReg (s : State) (b : BlkId) (o : Nat) (w : Word) : State :=
  if w = 0 then s
  else if isWide b o then s.wideEvent b o
  else match counterAt b o with
  | some i => s.cntEvent b i
  | none => s.hwSet b o w

/-! ## Stores -/

/-- A lane's RW, W1C and CNT fields written; commit-table fields go to staging while the window is open. -/
def State.writeReg (s : State) (b : BlkId) (o : Nat) (w : Word) (hw : Word) : State :=
  let s := s.when (commitReg b o && s.gov.commitWin) (·.stageReg b o w)
  if o < 0x20 then s.writeHdr b o w
  else match counterAt b o with
  | some i => s.cntPut b i w
  | none => match trkOfBlk b with
    | some t => s.writeTrk t o w
    | none =>
      if b = blkMemc then s.writeMemc o w else if b = blkOsti then s.writeOsti o w else if b = blkUnis then s.writeUnis o w
      else if b = blkChord then s.writeChord o w else if b = blkGov then s.writeGov o w else if b = blkFhub then s.writeFhub o w
      else if b = blkMetr then s.writeMetr o w (hw != 0) else if b = blkCres then s.writeCres o w
      else if b = blkRstc then s.writeRstc o w else if b = blkHmbx then s.writeHmbx o w (hw.getLsbD 1)
      else if b = blkMirl then s.writeMirl o w
      else if b = blkSysctl && o == 0x80 then { s with arbCfg := field w 0 2 }
      else s

/-- 64-bit counters of an access (R9): the low half loads and clears the high one, both halves of a 128-bit store load. -/
def State.writeWide (s : State) (b : BlkId) (o : Nat) (sz : Size) (data : Native) : State :=
  if isWide b o then
    s.widePut b o (if sz = .b16 then field data 0 64 else (laneOf data 0).setWidth 64)
  else s

/-- A store that every check has passed. -/
def State.regStoreOk (s : State) (i : Initiator) (b : BlkId) (o : Nat) (sz : Size) (data hw : Native) : State :=
  if (match trkOfBlk b with | some t => !s.populated t | none => false) then s
  else
    let lanes := (lanesAt o sz).zipIdx
    let s1 := (s.touchBlk i b).noteReserved b o sz
    -- R208: outside the window the write is ignored and counted
    let s2 := s1.when (!s.gov.commitWin && lanes.any (fun x => commitReg b x.1)) (·.cntGov .commitIgn)
    let s3 := s2.writeWide b o sz data
    let s4 := s3.each lanes (fun x s => s.writeReg b x.1 (laneData sz data x.2) (laneData sz hw x.2))
    let s5 := s4.each lanes (fun x s => s.cmdReg i b x.1 (laneData sz data x.2))
    let s6 := s5.when (b == blkHmbx && o == 0x30 && sz == .b16) (·.pushEvent [data])
    s6.each lanes (fun x s => s.hwReg b x.1 (laneData sz hw x.2))

/-- A store to register space: the state after it, and whether it ends with a bus error (R6, R76). -/
def State.regStore (s : State) (i : Initiator) (b : BlkId) (o : Nat) (sz : Size) (data hw : Native) : State × Bool :=
  if acceptsReg o sz && s.mayWrite i b o sz then (s.regStoreOk i b o sz data hw, false) else (s, true)

/-- REGISTER_WRITE: a poisoned write changes no register (01, Edge cases). -/
def execRegisterWrite (i : Initiator) (addr : Word) (size : Size) (data : Native) (poison : Bool) (hw : Native)
    (s : State) : Out :=
  match periphOf addr.toNat with
  | some (b, o) =>
    if poison then .next (s.answer 0 false true)
    else
      let r := s.regStore i b o size data hw
      .next (r.1.answer 0 false r.2)
  | none => .next (s.answer 0 false true)

/-- COUNTER_SNAPSHOT_READ: a 32-bit read; an event of the same cycle is visible to later reads only (R16). -/
def execCounterSnapshotRead (i : Initiator) (addr : Word) (wrap : Bool) (s : State) : Out :=
  match periphOf addr.toNat with
  | some (b, o) =>
    let (s1, d, err) := s.regLoad i b o .b4
    .next ((s1.when (wrap && !err) (·.hwReg b o 1)).answer d false err)
  | none => .next (s.answer 0 false true)

/-- ARB_CFG_WRITE: only the Steward may write it (R171, R173). -/
def execArbCfgWrite (i : Initiator) (data : Word) (s : State) : Out :=
  let r := s.regStore i blkSysctl 0x80 .b4 (data.setWidth 128) 0
  .next (r.1.answer 0 false r.2)

end Sys2Proof.Machine
end

