-- ==== Sys2Proof/Machine/Access.lean ====
section
/-!
DEFINITION. Accesses of the cores: memories asleep (R87), loads with what the egress hold still holds (R133), stores through
the egress hold of a Voice or at the commit of the Steward (R109, R163), and what they meet at their target (R75 to R77, R84 to
R86, R94, R95).
-/
namespace Sys2Proof.Machine

/-! ## Who and where -/

/-- The initiator of a cluster's register accesses (R8). -/
def initiatorOf (c : Cl) : Initiator := match voiceOf c with | some v => .voice v | none => .steward

/-- The power requester of the block that holds a word; none for a memory without a power state of its own (R87, Table 10-4). -/
def Loc.requester (l : Loc) : Option (Fin 29) :=
  match l.mem with
  | .itcm c | .dtcm c => some (rqCl c)
  | .chord => some (rqSlice ⟨chordSliceOf l.idx, by unfold chordSliceOf; omega⟩)
  | .xip => some rqXspi
  | .rom | .score _ | .verdict => none

/-- The blocks of an access that sleep. -/
def State.asleep (s : State) (m : MemName) (off n : Nat) : List (Fin 29) :=
  ((touched m off n).filterMap Loc.requester).filter (fun r => s.powerOf r == .retain || s.powerOf r == .off)

/-- An access to a memory: while its block sleeps it waits for the wake, which it requests (R87). -/
def State.whenAwake (s : State) (m : MemName) (off n : Nat) (go : State → State) : State :=
  match s.asleep m off n with
  | [] => go s
  | rs => s.each rs (fun r s => s.askGrant r)

/-- The wrapper of a dead agent ends its Chord accesses with a bus error (R110). -/
def State.agentDead (s : State) (c : Cl) : Bool := s.chord.wrapped.getLsbD c.val

/-! ## What the egress hold still holds (R133) -/

/-- What a load finds in the hold: nothing, the whole value, or a part for which it waits. -/
inductive Held where
  | nothing | wait | hit (v : Native) (poison : Bool)
deriving DecidableEq, Repr

/-- The newest held store that touches a load: its bytes when it covers the load completely (R133). -/
def State.heldLoad (s : State) (c : Cl) (m : MemName) (off n : Nat) : Held :=
  match s.core[c].egress.reverse.find? (fun e => s.unperformed c e && e.touches c m off n) with
  | none => .nothing
  | some e =>
    match e.op with
    | .store a sz d p =>
      match regionOf c a.toNat with
      | .mem _ o =>
        if o ≤ off ∧ off + n ≤ o + sizeBytes sz then .hit ((d >>> (8 * (off - o))) &&& byteMask 0 n) p else .wait
      | _ => .wait
    | _ => .wait

/-! ## Loads -/

/-- A load of `sz` bytes by a core: `w` is the access it becomes in Chord, `deliver` writes the value read from a region. -/
def State.coreLoad (s : State) (c : Cl) (a : Word) (sz : Size) (w : CacheOp)
    (deliver : State → Region → Native × Bool → State) : State :=
  let r := regionOf c a.toNat
  match r with
  | .mem m off =>
    if readable c m && accepts m off sz && !(m == .chord && s.agentDead c) then
      s.whenAwake m off (sizeBytes sz) (fun s =>
        match s.heldLoad c m off (sizeBytes sz) with
        | .hit v p => deliver s r (v, p)
        | .wait => s
        | .nothing =>
          if m = .chord then s.access c (w.start a)
          else deliver (s.noteBytes m off (sizeBytes sz) (initOf c)) r (s.peekBytes m off (sizeBytes sz)))
    else s.excLoad c a
  | .periph b off =>
    -- it leaves behind every held transaction, and a Voice's through the hold, where the core waits for it (R109, R133)
    if !acceptsReg off sz || !s.mayRead (initiatorOf c) then s.excLoad c a
    else if s.core[c].egress.any (s.unperformed c) then s
    else if (voiceOf c).isSome then
      s.onCore c (fun k => { k with blocked := true, egress := k.egress ++ [⟨.read a sz w, false, false⟩] })
    else
      match s.regLoad (initiatorOf c) b off sz with
      | (s1, d, err) => if err then s1.excLoad c a else deliver s1 r (d, false)
  | _ => s.excLoad c a

/-! ## Stores -/

/-- A store performed at a target other than Chord: the state, and whether it completed with an error. -/
def State.storeNow (s : State) (c : Cl) (a : Word) (sz : Size) (d : Native) (p : Bool) : State × Bool :=
  match regionOf c a.toNat with
  | .mem m off =>
    let r := s.storeParts .write (Sys2Proof.Machine.storeParts m off (sizeBytes sz) d) p (initOf c)
    (r.1.when (m == .verdict && !r.2) (·.markDirty (off / 16)), r.2)
  | .setAlias off =>
    let r := s.storeParts .setBits (Sys2Proof.Machine.storeParts .verdict off (sizeBytes sz) d) p (initOf c)
    (r.1.when (!r.2) (·.markDirty (off / 16)), r.2)
  | .clearAlias off =>
    let r := s.storeParts .clearBits (Sys2Proof.Machine.storeParts .verdict off (sizeBytes sz) d) p (initOf c)
    (r.1.when (!r.2) (·.markDirty (off / 16)), r.2)
  | .periph b off => s.regStore (initiatorOf c) b off sz d 0
  | .nothing => (s, true)

/-- A transaction commits into a free position of the egress hold; commit stops while there is none (R163). -/
def State.hold (s : State) (c : Cl) (op : EgressOp) : State :=
  if s.core[c].egress.length < 4 then
    s.finish c (fun k => { k with egress := k.egress ++ [⟨op, false, false⟩] })
  else s

/-- A store at its commit: into the egress hold of a Voice, or performed by the Steward, whose late error is STORE_LATE. -/
def State.commitStore (s : State) (c : Cl) (a : Word) (sz : Size) (d : Native) (p : Bool) : State :=
  match voiceOf c with
  | some _ => s.hold c (.store a sz d p)
  | none =>
    let now := fun (s : State) =>
      let r := s.storeNow c a sz d p
      (r.1.finish c id).when r.2 (·.onCore c (fun k => { k with late := k.late ++ [a] }))
    match regionOf c a.toNat with
    | .mem m off => s.whenAwake m off (sizeBytes sz) (fun s =>
        if m = .chord then s.access c ((CacheOp.store (sizeBytes sz) d p true).start a) else now s)
    | _ => now s

/-- A store by a core, checked at X: STORE_BUS where the map, the width or the writers forbid it; poisoned data for register
space is consumed, `src` being its register (R95). -/
def State.coreStore (s : State) (c : Cl) (a : Word) (sz : Size) (d : Native) (p : Bool) (src : RegF) : State :=
  match regionOf c a.toNat with
  | .mem m off =>
    if writable c m && accepts m off sz && !(m == .chord && s.agentDead c) then s.commitStore c a sz d p else s.excStore c a
  | .setAlias off | .clearAlias off => if acceptsReg off sz then s.commitStore c a sz d p else s.excStore c a
  | .periph b off =>
    if acceptsReg off sz && s.mayWrite (initiatorOf c) b off sz then
      if p then s.excPoison c 3 (src.setWidth 32) else s.commitStore c a sz d p
    else s.excStore c a
  | .nothing => s.excStore c a

/-- The address of a load, store or atomic: a tagged base is consumed (R95). -/
def State.withAddress (s : State) (c : Cl) (base : RegF) (off : Word) (go : State → Word → State) : State :=
  let b := s.core[c].readG base
  if b.2 then s.excPoison c 2 (base.setWidth 32) else go s (b.1 + off)

end Sys2Proof.Machine
end

