-- ==== Sys2Proof/Machine/Control.lean ====
section
/-!
DEFINITION. Control flow: branches (R131, R134), CALL and CALLR, LOOP (R143, R144), TRAP and RETI (R152, R156), WAIT (R160),
FENCE (R149) and IFLUSH (R145).
-/
namespace Sys2Proof.Machine

/-! ## Branches and calls -/

/-- A branch: a tagged operand is consumed (R95); in a loop its target must lie outside the body (R144). -/
def State.branch (s : State) (c : Cl) (i : Instr) (rs1 rs2 : RegF) (off : BitVec 16) (taken : Word → Word → Bool) : State :=
  let target := branchTarget s.core[c].pc off
  s.issue c ((insnWord i).getD 0) true (!inBody c s.core[c] target) (fun s =>
    let a := s.core[c].readG rs1
    let b := s.core[c].readG rs2
    if a.2 then s.excPoison c 1 (rs1.setWidth 32)
    else if b.2 then s.excPoison c 1 (rs2.setWidth 32)
    else if taken a.1 b.1 then s.onCore c (fun k => k.jump target)
    else s.finish c id)

def execBeq (c : Cl) (rs1 rs2 : RegF) (off : BitVec 16) (s : State) : Out :=
  .next (s.branch c (.beq c rs1 rs2 off) rs1 rs2 off (fun a b => a == b))
def execBne (c : Cl) (rs1 rs2 : RegF) (off : BitVec 16) (s : State) : Out :=
  .next (s.branch c (.bne c rs1 rs2 off) rs1 rs2 off (fun a b => a != b))
def execBlt (c : Cl) (rs1 rs2 : RegF) (off : BitVec 16) (s : State) : Out :=
  .next (s.branch c (.blt c rs1 rs2 off) rs1 rs2 off (fun a b => a.slt b))
def execBge (c : Cl) (rs1 rs2 : RegF) (off : BitVec 16) (s : State) : Out :=
  .next (s.branch c (.bge c rs1 rs2 off) rs1 rs2 off (fun a b => !a.slt b))
def execBltu (c : Cl) (rs1 rs2 : RegF) (off : BitVec 16) (s : State) : Out :=
  .next (s.branch c (.bltu c rs1 rs2 off) rs1 rs2 off (fun a b => a.ult b))
def execBgeu (c : Cl) (rs1 rs2 : RegF) (off : BitVec 16) (s : State) : Out :=
  .next (s.branch c (.bgeu c rs1 rs2 off) rs1 rs2 off (fun a b => !a.ult b))

/-- CALL writes the return address to g1. -/
def execCall (c : Cl) (off : BitVec 26) (s : State) : Out :=
  .next (s.issue c ((insnWord (.call c off)).getD 0) true false (fun s =>
    s.onCore c (fun k => (k.writeG 1 (k.pc + 4) false).jump (branchTarget k.pc off))))

/-- CALLR: the base is read before RD is written; a tagged base is consumed as a branch address (R95). -/
def execCallr (c : Cl) (rd rs1 : RegF) (imm : BitVec 16) (s : State) : Out :=
  .next (s.issue c ((insnWord (.callr c rd rs1 imm)).getD 0) true false (fun s =>
    s.withAddress c rs1 (simm imm) (fun s a => s.onCore c (fun k => (k.writeG rd (k.pc + 4) false).jump a))))

/-! ## Loops -/

/-- Where a LOOP may stand: in the own ITCM, at the last word before a 16-byte boundary (R143). -/
def loopPlace (c : Cl) (pc : Word) : Bool := (itcmIndex c pc).isSome && field pc 2 2 == 3

/-- LOOP runs the next NM1 + 1 instructions; a count of zero skips them; a tagged count is consumed (R143). -/
def execLoop (c : Cl) (gs nm1 : RegF) (count : BitVec 16) (s : State) : Out :=
  .next (s.issue c ((insnWord (.loop c gs nm1 count)).getD 0) (loopPlace c s.core[c].pc && decide (nm1.toNat < 16)) false (fun s =>
    let g := s.core[c].readG gs
    let n : Word := if gs = 0 then count.setWidth 32 else g.1
    if g.2 then s.excPoison c 1 (gs.setWidth 32)
    else if n = 0 then s.onCore c (fun k => { k.ageLane with pc := k.pc + 4 * (nm1.setWidth 32 + 2) })
    else s.finish c (fun k =>
      let first := ((itcmIndex c k.pc).getD 0) + 1
      { k with inLoop := true, loopBuf := false, loopPart := false
               loopStart := first, loopEnd := first + nm1.setWidth 16, loopCount := n - 1 })))

/-! ## Traps and returns -/

/-- TRAP: the code is in the register of its RS2 field (DEDUCED, log 42). -/
def execTrap (c : Cl) (rs2 : RegF) (s : State) : Out :=
  .next (s.issue c ((insnWord (.trap c rs2)).getD 0) true true (fun s =>
    s.excTrap c (field (s.core[c].readG rs2).1 0 8)))

/-- The core that a frame of Table 06-8 describes; a poisoned second word leaves tags on g1 and g3 to g5 (06, Edge cases). -/
def Core.restore (k : Core) (c : Cl) (lo hi : Native) (tag : Bool) (sp : Word) : Core :=
  let k1 := { k with
    pc := field lo 0 32, curLvl := field lo 32 5, ie := lo.getLsbD 37, maskLvl := field lo 40 5
    loopCount := field lo 64 32, loopStart := field lo 96 16, loopEnd := field lo 112 16 }
  -- INLOOP returns with a PC inside the body (R144)
  let back := lo.getLsbD 48 && inBody c k1 k1.pc
  let k2 := { k1 with inLoop := back, loopBuf := false, loopPart := back }
  ((((k2.writeG 1 (field hi 0 32) tag).writeG 3 (field hi 32 32) tag).writeG 4 (field hi 64 32) tag).writeG 5
    (field hi 96 32) tag).writeG 2 (sp + 32) false

/-- The frame read by RETI at a stack offset: its two words, and the state after the reads. -/
def State.readFrame (s : State) (c : Cl) (off : Nat) : State × (Native × Bool) × (Native × Bool) :=
  let lo := s.peekWord ⟨.dtcm c, off / 16⟩
  let hi := s.peekWord ⟨.dtcm c, off / 16 + 1⟩
  ((s.noteRead ⟨.dtcm c, off / 16⟩ (initOf c)).noteRead ⟨.dtcm c, off / 16 + 1⟩ (initOf c), lo, hi)

/-- The source that RETI chains to: acceptable against the stacked CURLVL and MASKLVL (R156). -/
def Core.chainTo (k : Core) (lo : Native) : Option Nat :=
  if k.ie then k.bestOf (k.acceptableAt (field lo 32 5).toNat (field lo 40 5).toNat) else none

/-- Tail-chain: the new level, the new vector, and the handler; the frame remains (R156). -/
def State.tailChain (s : State) (c : Cl) (src : Nat) : State :=
  let level := BitVec.ofNat 5 (s.core[c].srcLevel src)
  let s1 := s.onCore c (fun k => { k.ageLane with curLvl := level, icuPend := putBit k.icuPend src false })
  match s1.readVector c src with
  | (s2, some h) => s2.onCore c (fun k => { k with pc := h, loopBuf := false })
  | (s2, none) => s2.stopCore c

/-- RETI: tail-chains or unstacks (R156). A frame that cannot be read as the own DTCM's raises LOAD_BUS; a poisoned frame PC
is consumed as a branch address (log 43). -/
def execReti (c : Cl) (s : State) : Out :=
  .next (s.issue c ((insnWord (.reti c)).getD 0) true false (fun s =>
    let sp := s.core[c].readG 2
    if sp.2 then s.excPoison c 2 2
    else match stackOff c sp.1 with
    | some off =>
      if s.frameHeld c off then s
      else match s.readFrame c off with
      | (s1, lo, hi) =>
        if lo.2 then s1.excPoison c 2 sp.1
        else match s1.core[c].chainTo lo.1 with
        | some src => s1.tailChain c src
        | none => s1.onCore c (fun k => k.ageLane.restore c lo.1 hi.1 hi.2 sp.1)
    | none => s.excLoad c sp.1))

/-! ## WAIT, FENCE, IFLUSH -/

/-- The core in IDLE until CUE_READY is non-zero or a source is acceptable (R160); with one already there it goes on. -/
def State.enterWait (s : State) (c : Cl) : State :=
  let s1 := s.finish c id
  if s1.core[c].cueReady != 0 || s1.core[c].acceptable.isSome then s1
  else
    let s2 := s1.withWdogs (fun s => (s.onCore c (fun k => { k with waiting := true })).setPower (rqCl c) .idle)
    match voiceOf c with
    | some v => s2.onCres (fun x => { x with idleAt := upd x.idleAt v (fun _ => s.metr.lineTime) })
    | none => s2

def execWait (c : Cl) (s : State) : Out :=
  .next (s.issue c ((insnWord (.wait c)).getD 0) true false (fun s => s.enterWait c))

/-- FENCE completes when the egress hold is empty (R149); until then no source is accepted (R154). -/
def execFence (c : Cl) (s : State) : Out :=
  .next (s.issue c ((insnWord (.fence c)).getD 0) true true (fun s =>
    if s.core[c].egress.isEmpty then s.finish c (fun k => { k with draining := false })
    else s.onCore c (fun k => { k with draining := true })))

/-- IFLUSH drains, then invalidates the loop buffer (R145); the prefetch queue and the L1I hold nothing in this model. -/
def execIflush (c : Cl) (s : State) : Out :=
  .next (s.issue c ((insnWord (.iflush c)).getD 0) true false (fun s =>
    if s.core[c].egress.isEmpty then s.finish c (fun k => { k with loopBuf := false, draining := false })
    else s.onCore c (fun k => { k with draining := true })))

end Sys2Proof.Machine
end

