-- ==== Sys2Proof/Machine/Drunor.lean ====
section
/-!
DEFINITION. The Drunor 3 command set (12): what Drunor, or the ROM in its place, does for each command of Table 12-6, with the
configuration image (R307 to R309), the plans it computes (R121, R122), channel commands and reads (R310, R311), the journal
(R312), diagnostics (R313) and firmware (R314, R315).
-/
namespace Sys2Proof.Machine

/-! ## Running a command (R303, R305) -/

/-- The Steward runs: out of reset, not isolated, not stopped, and awake. -/
def State.stewardUp (s : State) : Bool :=
  let k := s.core[stw]
  !k.inReset && !k.doubleFault && !s.isolated stw && (s.powerOf rqStw == .run || s.powerOf rqStw == .idle)

/-- The command in progress is executed when it is this row's, nothing has been prepared for it, and steps 1 to 4 of R303 pass;
it is recorded as in progress first (R305). Otherwise the row has no effect. -/
def State.drunorRun (s : State) (op : BitVec 16) (sel : Bool) (body : State → State) : State :=
  match s.hmbx.cur with
  | some c =>
    if s.hmbx.busy && s.hmbx.prepared.isNone && s.hmbx.inProgress.isNone && (s.rst.drunor || s.romSet) && s.stewardUp &&
        c.opcode == op && sel && s.precheck == .execute then
      body (s.onHmbx (fun h => { h with inProgress := some c }))
    else s
  | none => s

/-- An OK response. -/
def State.ok (s : State) (data : List Native) : State := s.prepare 0 0 data

/-- A response with a status and no data. -/
def State.fail (s : State) (code detail : Byte) : State := s.prepare code detail []

/-- WRONG_STATE, the Governor's. -/
def State.wrongGov (s : State) : State := s.fail 0x05 1

/-- W0 of ARM, DISARM and CLEAR_FERMATA. -/
def State.govWord (s : State) : Native := place 128 0 (govNumber s.gov.state) ||| place 128 8 s.gov.epoch

/-- The answer to a GOV_CMD: its data when GOV_RESULT is 0, else GOV_REFUSED. -/
def State.govAnswer (s : State) (data : List Native) : State :=
  if s.gov.result = 0 then s.ok data else s.fail 0x06 (s.gov.result.setWidth 8)

/-- The two words of a SHA-256. -/
def digestWords (d : BitVec 256) : List Native :=
  [ofBytes 128 ((digestBytes d).take 16), ofBytes 128 ((digestBytes d).drop 16)]

/-- DISARMED or FERMATA (Table 12-6). -/
def State.quiet (s : State) : Bool := s.gov.state == .disarmed || s.gov.state == .fermata

/-! ## Information -/

def execGetInfo (s : State) : Out := .next (s.drunorRun 0x01 true (fun s => s.ok s.infoWords))

def execGetBootRecord (s : State) : Out := .next (s.drunorRun 0x02 true (fun s => s.ok s.bootWords))

def execReadConfigDigest (s : State) : Out :=
  .next (s.drunorRun 0x12 true (fun s =>
    s.ok (digestWords s.drunor.digest ++
      [place 128 0 s.drunor.commits ||| place 128 32 (BitVec.ofNat 32 s.drunor.cfg.length)])))

/-- PAIR_STATUS (Table 12-9). -/
def State.pairStatus (s : State) : Native :=
  let m := s.mirl
  place 128 0 (roleNumber s.rst.opt.role) ||| place 128 2 (bit m.linkUp) ||| place 128 3 (bit m.peer) |||
    place 128 4 (bit m.soloEpoch) ||| place 128 5 (bit m.digestMatch) ||| place 128 6 (bit m.versionOk) |||
    place 128 7 (bit m.observer) ||| place 128 8 (bit m.conflict) ||| place 128 16 m.ackedEpoch ||| place 128 32 m.offset

def execPairStatus (s : State) : Out := .next (s.drunorRun 0xA0 true (fun s => s.ok [s.pairStatus]))

/-! ## The Governor's commands (R206, R231, R326, R336) -/

/-- ARM: refused with PEER on a role conflict or, with the link up, on a digest mismatch (Table 13-3). -/
def execArm (s : State) : Out :=
  .next (s.drunorRun 0x20 true (fun s =>
    if s.gov.state != .disarmed then s.wrongGov
    else if s.mirl.conflict then s.fail 0x0F 4
    else if s.mirl.linkUp && s.mirl.peerHello.isSome && s.mirl.versionOk && !s.mirl.digestMatch then s.fail 0x0F 2
    else
      let s1 := (s.stewWrite blkGov).govArm
      s1.govAnswer [s1.govWord]))

def execDisarm (s : State) : Out :=
  .next (s.drunorRun 0x21 true (fun s => let s1 := (s.stewWrite blkGov).govDisarm; s1.govAnswer [s1.govWord]))

/-- ARMED or PERMITTED (Table 12-6). -/
def State.armedOn (s : State) : Bool := s.gov.state == .armed || s.gov.state == .permitted

/-- PERMIT_NONCE written by Drunor. -/
def State.putNonce (s : State) : State := (s.stewWrite blkGov).onGov (fun g => { g with nonce := field (s.param 0) 0 32 })

/-- PERMIT_STAGE: an observer refuses it (R339). -/
def execPermitStage (s : State) : Out :=
  .next (s.drunorRun 0x22 true (fun s =>
    if !s.armedOn then s.wrongGov
    else if s.mirl.observer then s.fail 0x0F 6
    else s.putNonce.govStage.govAnswer [place 128 0 s.metr.lineTime]))

/-- PERMIT_CONFIRM: reserved to role A in a formed pair, whose answer waits for the switch instant (R336). -/
def execPermitConfirm (s : State) : Out :=
  .next (s.drunorRun 0x23 true (fun s =>
    if !s.armedOn then s.wrongGov
    else if s.formed && s.rst.opt.role == .b then s.fail 0x0F 7
    else
      let s0 := s.putNonce
      let s1 := s0.govConfirm
      match s0.confirmRefusal with
      | some code => if code = 5 then s1.fail 0x0F 5 else s1.fail 0x06 (code.setWidth 8)
      | none =>
        if s.formed && s.rst.opt.role == .a then s1
        else s1.ok [place 128 0 s1.gov.echo ||| place 128 32 s1.gov.epoch]))

def execClearFermata (s : State) : Out :=
  .next (s.drunorRun 0x60 true (fun s =>
    if s.gov.state != .fermata then s.wrongGov
    else let s1 := (s.stewWrite blkGov).govClear; s1.govAnswer [s1.govWord]))

/-! ## Staging areas (R308, R314) -/

/-- A chunk's OFFSET and TOTAL, and its bytes. -/
def State.chunkOffset (s : State) : Nat := (field (s.param 0) 0 32).toNat
def State.chunkTotal (s : State) : Nat := (field (s.param 0) 32 32).toNat
def State.chunkBytes (s : State) : List Byte :=
  match s.hmbx.cur with | some c => s.paramBytes 16 (c.length - 16) | none => []

/-- The largest image of R307 and R314. -/
def maxImage : Nat := 0x80000

/-- W0 with the bytes held. -/
def heldWord (bs : List Byte) : Native := place 128 0 (BitVec.ofNat 32 bs.length)

/-- LOAD_CONFIG_CHUNK: reserved to role A in a formed pair (R345). -/
def execLoadConfigChunk (s : State) : Out :=
  .next (s.drunorRun 0x10 true (fun s =>
    let off := s.chunkOffset
    let total := s.chunkTotal
    let bs := s.chunkBytes
    if s.formed && s.rst.opt.role == .b then s.fail 0x0F 7
    else if maxImage < total then s.fail 0x04 0
    else if off = 0 then
      if total < bs.length then s.fail 0x0D 2
      else (s.onDrunor (fun d => { d with cfgTotal := total, cfg := bs })).ok [heldWord bs]
    else if off != s.drunor.cfg.length then s.fail 0x0D 1
    else if total != s.drunor.cfgTotal || total < off + bs.length then s.fail 0x0D 2
    else
      let all := s.drunor.cfg ++ bs
      (s.onDrunor (fun d => { d with cfg := all })).ok [heldWord all]))

/-! ## The configuration image (R307, Table 12-10) -/

/-- A configuration record. -/
structure CfgRecord where
  typ : Nat
  index : Nat
  arg : Nat
  words : List Native
deriving DecidableEq, Repr

/-- The COUNT a record type takes; APP_DATA takes any. -/
def cfgCountOk (typ count : Nat) : Bool :=
  match typ with
  | 0 => count == 0 | 1 => count == 2 | 2 => count == 32 | 3 => count == 64 | 4 | 5 => count == 16 | 6 => count == 2
  | 7 => true | _ => false

/-- The records of an image up to its END, which is its last word; none where one is malformed. -/
def cfgRecords : Nat → List Native → Option (List CfgRecord)
  | 0, _ => none
  | _ + 1, [] => none
  | fuel + 1, h :: rest =>
    let typ := (field h 0 8).toNat
    let count := (field h 16 16).toNat
    if field h 64 64 != 0 || !cfgCountOk typ count || rest.length < count then none
    else if typ = 0 then if rest.isEmpty then some [] else none
    else
      (cfgRecords fuel (rest.drop count)).map (fun rs =>
        ⟨typ, (field h 8 8).toNat, (field h 32 32).toNat, rest.take count⟩ :: rs)

/-- The records of one type. -/
def recordsOf (rs : List CfgRecord) (typ : Nat) : List CfgRecord := rs.filter (fun r => r.typ == typ)

/-- The words of a type's one record. -/
def wordsOf (rs : List CfgRecord) (typ : Nat) : List Native :=
  match recordsOf rs typ with | r :: _ => r.words | [] => []

/-- The route table of a trunk, as its last ROUTE record gives it. -/
def routeOf (rs : List CfgRecord) (t : TrkId) : Option (List Native) :=
  ((recordsOf rs 2).reverse.find? (fun r => r.index == t.val)).map (·.words)

/-- W0 and W1 of GLOBAL. -/
def cfgW0 (rs : List CfgRecord) : Native := ((wordsOf rs 1)[0]?).getD 0
def cfgW1 (rs : List CfgRecord) : Native := ((wordsOf rs 1)[1]?).getD 0
def cfgSweep (rs : List CfgRecord) : BitVec 2 := field (cfgW0 rs) 0 2
def cfgShedPolicy (rs : List CfgRecord) : Bool := (cfgW0 rs).getLsbD 2
def cfgJudgePct (rs : List CfgRecord) : BitVec 7 := field (cfgW0 rs) 3 7
def cfgTrunks (rs : List CfgRecord) : BitVec 16 := field (cfgW0 rs) 59 16
def cfgShedPrio (rs : List CfgRecord) : BitVec 64 := field (cfgW1 rs) 0 64

/-- Chord's part for APP_DATA, and the Verdict shadow of a pair that it must not overlap (R307, R329). -/
def appFits (pair : Bool) (r : CfgRecord) : Bool :=
  let a := 0x10000000 + r.arg
  let z := a + 16 * r.words.length
  decide (z ≤ 0x10600000) && !(pair && decide (a < 0x10600000) && decide (0x10580000 < z))

/-- Step 2 of R309: one each of GLOBAL, CHMAP, CLAMP, SENTINEL and FAULT_CLASS, a ROUTE for every enabled trunk, APP_DATA in
range, and JUDGE_PCT at most 95 (R122). -/
def cfgWellFormed (rs : List CfgRecord) (pair : Bool) : Bool :=
  ([1, 3, 4, 5, 6] : List Nat).all (fun t => (recordsOf rs t).length == 1) &&
    (recordsOf rs 2).all (fun r => decide (r.index < 16)) &&
    trunks.all (fun t => !(cfgTrunks rs).getLsbD t.val || (routeOf rs t).isSome) &&
    (recordsOf rs 7).all (appFits pair) && decide ((cfgJudgePct rs).toNat ≤ 95)

/-! ## Ranges and plans (R119, R121, R122) -/

/-- The valid entries of a channel map, each with its range. -/
def validRanges (map : List Native) : List (Nat × Native) := ((List.range map.length).zip map).filter (fun p => rangeValid p.2)

/-- Every channel from `lo` to `hi` lies in some range. -/
def coveredBy (rs : List Native) : Nat → Nat → Nat → Bool
  | 0, _, _ => false
  | fuel + 1, lo, hi =>
    if hi < lo then true
    else match rs.find? (fun e => decide (rangeFirst e ≤ lo) && decide (lo ≤ rangeLast e)) with
    | some e => coveredBy rs fuel (rangeLast e + 1) hi
    | none => false

/-- Two ranges share a channel. -/
def overlap (a b : Native) : Bool := decide (rangeFirst a ≤ rangeLast b) && decide (rangeFirst b ≤ rangeLast a)

/-- Step 3 of R309: valid ranges lie in one trunk, are disjoint, and cover every channel of every present concentrator (R119). -/
def rangesOk (map : List Native) (rs : List CfgRecord) : Bool :=
  let vs := (validRanges map).map (·.2)
  let apart := fun (p : Nat × Native) => (((List.range vs.length).zip vs).all (fun q => q.1 == p.1 || !overlap p.2 q.2))
  vs.all (fun e => decide (rangeFirst e ≤ rangeLast e) && field e 13 4 == field e 45 4) &&
    ((List.range vs.length).zip vs).all apart &&
    trunks.all (fun t => match routeOf rs t with
      | some ws => ((List.range ws.length).zip ws).all (fun p =>
          !p.2.getLsbD 64 || coveredBy vs 65 (t.val * 8192 + 256 * p.1) (t.val * 8192 + 256 * p.1 + 255))
      | none => true)

/-- The load of a range in cycles (R122). -/
def rangeLoad (e : Native) : Nat := (rangeLast e + 1 - rangeFirst e) * (field e 80 16).toNat + (field e 96 16).toNat

/-- The owner a plan gives a range. -/
def planOwner (p : Plan) (r : Nat) : Nat := (field p.owners (2 * r) 2).toNat

/-- Cycles for judging in a period (R122). -/
def judgeBudget (sweep : BitVec 2) (pct : BitVec 7) : Nat := periodMs sweep * 6000 * pct.toNat

/-- The sum of the loads of the ranges that a test selects. -/
def loadOf (vs : List (Nat × Native)) (sel : Nat × Native → Bool) : Nat :=
  ((vs.filter sel).map (fun p => rangeLoad p.2)).foldl (· + ·) 0

/-- The capacity test of mask `m` at a sweep and shed set (R122). -/
def capacityOk (vs : List (Nat × Native)) (plans : Vector Plan 16) (pct : BitVec 7) (m : Nat) (sweep : BitVec 2)
    (shed : BitVec 16) : Bool :=
  let b := judgeBudget sweep pct
  let pm := getN plans m ⟨0, 0, 0, false⟩
  let gone := fun (sh : BitVec 16) (p : Nat × Native) => sh.getLsbD (rangeTrunk p.2).val
  (List.range 4).all (fun f => m.testBit f ||
    let pf := getN plans (m + 2 ^ f) ⟨0, 0, 0, false⟩
    let load := fun (v : Nat) => loadOf vs (fun p => planOwner pf p.1 == v && !gone pf.shed p)
    (List.range 4).all (fun v => !m.testBit v ||
      let moved := loadOf vs (fun p => planOwner pf p.1 == f && planOwner pm p.1 == v && !gone shed p)
      decide (load v + moved ≤ b) && decide (load f + moved + 24000 ≤ b)))

/-- SHED_PRIO of a trunk. -/
def shedPrio (prio : BitVec 64) (t : TrkId) : Nat := (field prio (4 * t.val) 4).toNat

/-- The owners of a plan (R121): every range of a live Voice; a range stays with its owner wherever that owner lives. -/
def ownersOk (vs : List (Nat × Native)) (plans : Vector Plan 16) (m : Nat) : Bool :=
  let pm := getN plans m ⟨0, 0, 0, false⟩
  vs.all (fun p =>
    m.testBit (planOwner pm p.1) &&
    (List.range 4).all (fun f => m.testBit f ||
      let o := planOwner (getN plans (m + 2 ^ f) ⟨0, 0, 0, false⟩) p.1
      !m.testBit o || planOwner pm p.1 == o))

/-- SWEEP and SHED of a plan (R121, R122): the configured sweep; stretched once where that does not fit and the policy allows;
else shed in ascending SHED_PRIO order, in any order among equals, until the test passes. -/
def sweepShedOk (vs : List (Nat × Native)) (plans : Vector Plan 16) (rs : List CfgRecord) (m : Nat) : Bool :=
  let p := getN plans m ⟨0, 0, 0, false⟩
  let sel := cfgSweep rs
  let test := capacityOk vs plans (cfgJudgePct rs) m
  let stretch := !cfgShedPolicy rs && sel != 3
  let prio := shedPrio (cfgShedPrio rs)
  let kept := fun (t : TrkId) => !p.shed.getLsbD t.val
  let held := trunks.filter (fun t => (cfgTrunks rs).getLsbD t.val)
  test p.sweep p.shed &&
    (if p.shed = 0 then
      p.sweep == sel || (stretch && p.sweep == sel + 1 && !test sel 0)
    else
      p.sweep == sel && !test sel 0 && (!stretch || !test (sel + 1) 0) &&
        trunks.all (fun t => kept t || held.all (fun u => !kept u || decide (prio t ≤ prio u))) &&
        trunks.any (fun t => !kept t && trunks.all (fun u => kept u || decide (prio u ≤ prio t)) &&
          !test sel (putBit p.shed t.val false)))

/-- Step 4 of R309: every plan conforms, and that of the live mask keeps SWEEP_SEL and sheds nothing. -/
def plansOk (vs : List (Nat × Native)) (plans : Vector Plan 16) (rs : List CfgRecord) (live : BitVec 4) : Bool :=
  (List.range 16).all (fun m => m == 0 ||
    ((getN plans m ⟨0, 0, 0, false⟩).valid && ownersOk vs plans m && sweepShedOk vs plans rs m)) &&
    (live == 0 || ((getN plans live.toNat ⟨0, 0, 0, false⟩).sweep == cfgSweep rs &&
      (getN plans live.toNat ⟨0, 0, 0, false⟩).shed == 0))

/-! ## Steps 5 to 7 of R309 -/

/-- Drunor's own tables in its part of Chord (log 37). -/
def routeBaseOf (t : TrkId) : Nat := 0x10700000 + 512 * t.val
def chmapBaseAddr : Nat := 0x10702000

/-- A native word written into Chord at any byte address. -/
def State.chordPut (s : State) (a : Nat) (w : Native) : State :=
  s.each (Sys2Proof.Machine.storeParts .chord (a - 0x10000000) 16 w) (fun p s =>
    let at' := 0x10000000 + 16 * p.loc.idx
    let old := s.chordNow p.loc.idx
    s.chordStore at' (mergeStore .write old.1 p.part p.mask) (old.2 && p.mask != BitVec.allOnes 128))

/-- Native words written into Chord from an address. -/
def State.chordWords (s : State) (a : Nat) (ws : List Native) : State :=
  s.each ((List.range ws.length).zip ws) (fun p s => s.chordPut (a + 16 * p.1) p.2)

/-- Step 5: APP_DATA, route tables and channel map into Chord; ROUTE_BASE, CHMAP_BASE and CONC_EXPECT. -/
def State.copyTables (s : State) (rs : List CfgRecord) : State :=
  let s1 := s.each (recordsOf rs 7) (fun r s => s.chordWords (0x10000000 + r.arg) r.words)
  let s2 := s1.each trunks (fun t s => match routeOf rs t with
    | some ws => (s.chordWords (routeBaseOf t) ws).onTrk t (fun k => { k with
        routeBase := BitVec.ofNat 23 (routeBaseOf t / 512)
        concExpect := BitVec.ofNat 6 (ws.filter (fun w => w.getLsbD 64)).length })
    | none => s)
  (s2.chordWords chmapBaseAddr (wordsOf rs 3)).onUnis (fun u => { u with chmapBase := BitVec.ofNat 22 (chmapBaseAddr / 1024) })

/-- The blocks that a commit's registers lie in: Drunor's writes end the Steward's snapshots of them (R8). -/
def commitBlocks : List BlkId := [blkGov, blkFhub, blkUnis, blkMetr, blkCres] ++ trunks.map blkTrk

/-- Step 6: every commit table's staging written, CLAMP_CRC_EXP set, and the window closed (R208). -/
def State.commitTables (s : State) (rs : List CfgRecord) (plans : Vector Plan 16) : State :=
  let w0 := cfgW0 rs
  let clamp := wordsOf rs 4
  let sent := wordsOf rs 5
  let cls : BitVec 256 := ((wordsOf rs 6)[1]?.getD 0) ++ ((wordsOf rs 6)[0]?.getD 0)
  let s1 := (s.each commitBlocks (fun b s => s.stewWrite b)).commitOpen
  let s2 := s1.onGov (fun g => { g with
    rateStaged := field w0 26 11, rideFramesS := field w0 37 2, clampCrcExp := crc32cWords clamp
    clampStaged := Vector.ofFn (fun i => (clamp[i.val]?).getD 0 &&& clampMask) })
  let s3 := s2.onHub (fun h => { h with
    escNS := field w0 39 4, escWinS := field w0 43 16, clsStaged := Vector.ofFn (fun i => field cls (3 * i.val) 3) })
  let s4 := (s3.onUnis (fun u => { u with
    planStaged := Vector.ofFn (fun i => if i.val = 0 then u.planStaged[i] else plans[i]) })).onMetr (fun m =>
      { m with sweepSelS := field w0 0 2 })
  let s5 := s4.each clusters (fun c s => s.onCore c (fun k => { k with wdogStaged := field w0 10 16 }))
  let s6 := s5.each trunks (fun t s => s.onTrk t (fun k => { k with
    sentVmaxS := Vector.ofFn (fun i => field ((sent[i.val]?).getD 0) 0 20)
    sentVminS := Vector.ofFn (fun i => field ((sent[i.val]?).getD 0) 32 20)
    sentTmaxS := Vector.ofFn (fun i => field ((sent[i.val]?).getD 0) 64 12) }))
  s6.commitClose

/-- The registers that GLOBAL names besides the commit tables; trunk enables start or stop the engines. -/
def State.globalRegs (s : State) (rs : List CfgRecord) : State :=
  let w0 := cfgW0 rs
  let s1 := (s.onMetr (fun m => { m with warnLead := field w0 75 10, wdogMs := field w0 85 8 })).onCres (fun c =>
    { c with lineKeep := w0.getLsbD 93 })
  let s2 := s1.onDrunor (fun d => { d with
    judgePct := cfgJudgePct rs, policy := cfgShedPolicy rs, shedPrio := cfgShedPrio rs, trunkEn := cfgTrunks rs })
  s2.each trunks (fun t s =>
    if (cfgTrunks rs).getLsbD t.val then s.trkEnable t else if s.trk[t].enable then s.trkDisable t else s)

/-- DIGEST_MATCH against the peer's last HELLO. -/
def State.refreshMatch (s : State) : State :=
  match s.mirl.peerHello with
  | some (_, _, w2, w3) => s.onMirl (fun m => { m with digestMatch := helloDigest w2 w3 == s.drunor.digest })
  | none => s

/-- Step 7: TABLE_SYNC in every TRK_n and in UNIS, the digest, the commit count and the journal. -/
def State.commitDone (s : State) (digest : BitVec 256) : State :=
  let s1 := (s.each trunks (fun t s => s.tableSync (blkTrk t))).tableSync blkUnis
  ((s1.onDrunor (fun d => { d with digest := digest, commits := d.commits + 1 })).journalFree 4).refreshMatch

/-- The role of a device that pairs: A or B. -/
def State.inPair (s : State) : Bool := s.rst.opt.role != .solo

/-- R309 over the staged image: the state, and 0 or the detail of the first failure. -/
def State.commitImage (s : State) (plans : Vector Plan 16) (expect : Option (BitVec 256)) : State × Byte :=
  let bs := s.drunor.cfg
  let digest := sha256 bs
  if bs.isEmpty || bs.length != s.drunor.cfgTotal then (s, 1)
  else if (match expect with | some d => d != digest | none => false) then (s, 2)
  else match (if bs.length % 16 = 0 then cfgRecords (bs.length / 16 + 1) (wordsOfBytes bs.length bs) else none) with
  | none => (s, 3)
  | some rs =>
    if !cfgWellFormed rs s.inPair then (s, 3)
    else if !rangesOk (wordsOf rs 3) rs then (s, 4)
    else if !plansOk (validRanges (wordsOf rs 3)) plans rs s.commitMask then (s, 5)
    else
      let s6 := (s.copyTables rs).commitTables rs plans
      -- a refused commit leaves every live table as it was
      if s6.gov.result = 8 then (s.commitTables rs plans, 6)
      else ((s6.globalRegs rs).commitDone digest, 0)

/-- W2 to W5 and the digest (R309). -/
def State.commitWords (s : State) : List Native := digestWords s.drunor.digest ++ State.commitReport.planSummary s.unis.plan

/-- The peer is there and rows 1 and 2 of Table 13-3 pass: A sends the image on (R329). -/
def State.feedsPeer (s : State) : Bool :=
  s.rst.opt.role == .a && s.mirl.linkUp && s.mirl.peerHello.isSome && !s.mirl.conflict && s.mirl.versionOk

/-- The host's COMMIT_CONFIG (R309, R329). -/
def State.hostCommit (s : State) (plans : Vector Plan 16) : State :=
  if s.formed && s.rst.opt.role == .b then s.fail 0x0F 7
  else if !s.quiet then s.wrongGov
  else
    let (s1, d) := s.commitImage plans (some (digestOfBytes (s.paramBytes 0 32)))
    if d != 0 then s1.fail 0x07 d
    else if s1.feedsPeer then
      ((s1.onDrunor (fun x => { x with awaitPeer := true })).mirlSend s1.helloPacket).openSession 1
    else s1.ok s1.commitWords

/-- B commits an image that a session delivered, and reports its digest in a HELLO (R329; log 34). -/
def State.peerCommit (s : State) (plans : Vector Plan 16) : State :=
  if s.rst.opt.role == .b && s.mirl.linkUp && s.rst.drunor && !s.drunor.cfg.isEmpty && s.quiet &&
      sha256 s.drunor.cfg != s.drunor.digest then
    let s1 := (s.commitImage plans none).1
    s1.mirlSend s1.helloPacket
  else s

def execCommitConfig (plans : Vector Plan 16) (s : State) : Out :=
  match s.hmbx.cur with
  | some c => if c.opcode = 0x11 then .next (s.drunorRun 0x11 true (·.hostCommit plans)) else .next (s.peerCommit plans)
  | none => .next (s.peerCommit plans)

/-! ## Channel commands and reads (R310, R311, Table 12-8) -/

/-- CHANNEL_COMMAND: each word through the Steward intake with ORIGIN 4; result byte i for word i. -/
def execChannelCommand (s : State) : Out :=
  .next (s.drunorRun 0x30 true (fun s =>
    let w0 := s.param 0
    let n := (field w0 0 4).toNat
    if n = 0 ∨ 14 < n then s.fail 0x04 0
    else
      let (s1, res) := (List.range n).foldl (fun (x : State × Native) i =>
        let trunk : BitVec 4 := field w0 (64 + 4 * i) 4
        let (t, r) := x.1.intakeSteward (trunk.setWidth 6) (putField (x.1.param (i + 1)) 80 (4 : BitVec 4)) false
        (t, x.2 ||| place 128 (8 * i) (BitVec.ofNat 8 r))) (s, 0)
      s1.ok [res]))

/-- The words of READ_CHANNELS: their places. -/
def readPlaces (buf : Fin 2) (verdict : Bool) (first count : Nat) : List Loc :=
  if verdict then
    if count = 0 then [] else (List.range ((first + count - 1) / 4 + 1 - first / 4)).map (fun i => ⟨.verdict, first / 4 + i⟩)
  else (List.range count).map (fun i => ⟨.score buf, first + i⟩)

/-- READ_CHANNELS: a poisoned word is given as zero with its bit in POISON_MAP. -/
def execReadChannels (s : State) : Out :=
  .next (s.drunorRun 0x31 true (fun s =>
    let w0 := s.param 0
    let first := (field w0 0 17).toNat
    let what := (field w0 20 4).toNat
    let count := (field w0 24 8).toNat
    match s.metr.judged with
    | some j =>
      let ls := readPlaces j.buf (what == 1) first count
      if s.cres.season = .winter then s.fail 0x05 2
      else if 1 < what ∨ 131072 < first + count ∨ 62 < ls.length then s.fail 0x04 0
      else
        let s1 := s.each ls (fun l s => s.noteRead l .steward)
        let ws := ls.map s.peekWord
        let map := ((List.range ws.length).zip ws).foldl (fun (m : BitVec 64) p =>
          if p.2.2 then m ||| oneHot 64 p.1 else m) 0
        s1.ok ((place 128 0 j.frame ||| place 128 64 map) :: ws.map (fun w => if w.2 then 0 else w.1))
    | none => s.fail 0x05 2))

/-- The judged-trip time in 0.1 ms (Tables 02-4, 02-6). -/
def State.frt (s : State) : BitVec 16 :=
  let t := periodMs s.metr.sweep
  let n := if s.gov.riding then 2 + s.gov.rideLimit else 2
  BitVec.ofNat 16 (10 * (n * t + 1))

/-- Channels of a trunk with a bit of their Verdict state set. -/
def State.countBit (s : State) (t : TrkId) (b : Nat) : Nat :=
  ((List.range 2048).map (fun i =>
    let w := (s.peekWord ⟨.verdict, t.val * 2048 + i⟩).1
    ((List.range 4).filter (fun j => w.getLsbD (32 * j + b))).length)).foldl (· + ·) 0

/-- READ_SUMMARY (Table 12-8). -/
def State.summaryWords (s : State) : List Native :=
  let u := s.unis
  (place 128 0 (govNumber s.gov.state) ||| place 128 2 (seasonNumber s.cres.season) ||| place 128 4 s.gov.epoch |||
    place 128 12 s.core[stw].frame ||| place 128 28 u.planMask ||| place 128 32 u.planSweep ||| place 128 48 u.planShed |||
    place 128 64 s.frt) ::
  trunks.map (fun t =>
    let k := s.trk[t]
    place 128 0 (BitVec.ofNat 17 (s.countBit t 30)) ||| place 128 32 (BitVec.ofNat 17 (s.countBit t 31)) |||
      place 128 64 k.missLast ||| place 128 96 (linkNumber k.link) |||
      place 128 112 (BitVec.ofNat 16 (if s.gov.zoneTrip.getLsbD t.val then 1 else 0)))

def execReadSummary (s : State) : Out := .next (s.drunorRun 0x32 true (fun s => s.ok s.summaryWords))

/-! ## The journal (R312) -/

/-- SEQ of a journal entry. -/
def entrySeq (e : Native) : Nat := (field e 0 32).toNat

def execReadJournal (s : State) : Out :=
  .next (s.drunorRun 0x40 true (fun s =>
    let w0 := s.param 0
    let n := (field w0 32 6).toNat
    let next := s.drunor.nextSeq
    let oldest : Word := match s.drunor.journal with | e :: _ => field e 0 32 | [] => next
    let from' := max (field w0 0 32).toNat oldest.toNat
    if n = 0 ∨ 62 < n then s.fail 0x04 0
    else s.ok ((place 128 0 oldest ||| place 128 32 next) ::
      (s.drunor.journal.filter (fun e => decide (from' ≤ entrySeq e))).take n)))

/-! ## Time (R236) -/

/-- SET_TIME slew: through LT_ADJ. -/
def execSetTimeSlew (s : State) : Out :=
  .next (s.drunorRun 0x50 (!(s.param 0).getLsbD 0) (fun s =>
    if s.rst.opt.role = .b then s.fail 0x05 4
    else
      let s1 := (s.stewWrite blkMetr).ltAdjWrite (field (s.param 0) 64 32) false
      s1.ok [place 128 0 s1.metr.lineTime]))

/-- SET_TIME step: through LT_SET and LT_STEP. -/
def execSetTimeStep (s : State) : Out :=
  .next (s.drunorRun 0x50 ((s.param 0).getLsbD 0) (fun s =>
    if s.rst.opt.role = .b then s.fail 0x05 4
    else if !s.mayStep then ((s.stewWrite blkMetr).onMetr (fun m => { m with ltSet := field (s.param 0) 64 64 })).ltStep.fail 0x05 5
    else
      let s1 := (((s.stewWrite blkMetr).onMetr (fun m => { m with ltSet := field (s.param 0) 64 64 })).ltStep).journalFree 6
      s1.ok [place 128 0 s1.metr.lineTime]))

/-! ## Diagnostics (R313) -/

/-- RUN_DIAG's KIND. -/
def State.diagKind (s : State) : Nat := (field (s.param 0) 0 8).toNat

/-- KIND 1: BIST_REQ's slices; GO follows DONE. -/
def execRunDiagBist (s : State) : Out :=
  .next (s.drunorRun 0x70 (s.diagKind == 1) (fun s =>
    if !(s.rst.lc == .factory || s.rst.lc == .develop || s.rst.lc == .retired) then s.fail 0x05 3
    else if s.gov.state != .disarmed then s.wrongGov
    else ((s.stewWrite blkRstc).onRst (fun r => { r with bistSlices := field (s.param 0) 8 8 })).ok []))

/-- KIND 2: DONE comes once ALIVE is set. -/
def execRunDiagVoiceReturn (s : State) : Out :=
  .next (s.drunorRun 0x70 (s.diagKind == 2) (fun s =>
    let n := (field (s.param 0) 8 2).toNat
    let v : Vc := ⟨(field (s.param 0) 8 2).toNat, (field (s.param 0) 8 2).isLt⟩
    if 2 ≤ s.unis.out[v].count.toNat then s.fail 0x04 0
    else s.onUnis (fun u => { u with returnReq := putBit u.returnReq n true })))

/-- KIND 3: INJ_SRC and INJ_GO of FHUB. -/
def execRunDiagFaultInject (s : State) : Out :=
  .next (s.drunorRun 0x70 (s.diagKind == 3) (fun s =>
    let src : BitVec 6 := field (s.param 0) 16 6
    if 60 ≤ src.toNat then s.fail 0x04 0
    else if s.rst.lc = .deployed && s.gov.state != .disarmed then s.wrongGov
    else (((s.stewWrite blkFhub).onHub (fun h => { h with injSrc := src })).fhInject).ok []))

/-- KIND 4: MEMC's injection registers and INJ_GO. -/
def execRunDiagMemInject (s : State) : Out :=
  .next (s.drunorRun 0x70 (s.diagKind == 4) (fun s =>
    let w0 := s.param 0
    (((s.stewWrite blkMemc).onMemc (fun m => { m with
      injKind := field w0 16 3, injAddr := field w0 68 28, injBit := field w0 96 7, injAbit := field w0 104 5 })).injArm).ok []))

/-- KIND 5: RELINK of a trunk whose zone is low. -/
def execRunDiagRelink (s : State) : Out :=
  .next (s.drunorRun 0x70 (s.diagKind == 5) (fun s =>
    let t : TrkId := ⟨(field (s.param 0) 8 4).toNat, (field (s.param 0) 8 4).isLt⟩
    if s.gov.zone.getLsbD t.val then s.wrongGov else ((s.stewWrite (blkTrk t)).trkRelink t).ok []))

/-! ## Firmware (R314, R315) -/

def execFwUpdateBegin (s : State) : Out :=
  .next (s.drunorRun 0x80 true (fun s =>
    let total := s.chunkTotal
    if !s.quiet then s.wrongGov
    else if maxImage < total then s.fail 0x04 0
    else (s.onDrunor (fun d => { d with fwKind := some ((s.param 0).getLsbD 0), fwTotal := total, fw := [] })).ok []))

def execFwUpdateData (s : State) : Out :=
  .next (s.drunorRun 0x81 true (fun s =>
    let off := s.chunkOffset
    let bs := s.chunkBytes
    if !s.quiet then s.wrongGov
    else if s.drunor.fwKind.isNone then s.fail 0x0D 3
    else if off != s.drunor.fw.length then s.fail 0x0D 1
    else if s.drunor.fwTotal < off + bs.length then s.fail 0x0D 2
    else
      let all := s.drunor.fw ++ bs
      (s.onDrunor (fun d => { d with fw := all })).ok [heldWord all]))

/-- SEQ and VERSION of an image. -/
def imageWord (bs : List Byte) : Native := place 128 0 (imgSeq bs) ||| place 128 32 (imgField 64 bs 0x18 8)

/-- The first failure of a slot image: its Drunor image's, then that of the application image that follows. -/
def State.slotFailure (s : State) (bs : List Byte) : Option Byte :=
  match s.imageFailure bs false with
  | some d => some d
  | none => if (appPart bs).isEmpty then none else s.imageFailure (appPart bs) true

/-- The staging area closed. -/
def State.fwClosed (s : State) : State := s.onDrunor (fun d => { d with fwKind := none, fw := [] })

/-- The inactive slot's bytes replaced. -/
def State.putSlot (s : State) (bs : List Byte) : State :=
  { s with mem := if s.rst.bootRec.slotB then { s.mem with flashA := bs } else { s.mem with flashB := bs } }

/-- What a failed erase, program or read-back leaves in the slot: free bytes (log 38). -/
def State.spoiltSlot (s : State) (n : Nat) : State :=
  let bs := ((List.range (n / 16 + 1)).map (fun i => bytesOf 16 (Config.freeNative (s.free + i)))).flatten
  { s.putSlot bs with free := s.free + n / 16 + 1 }

/-- FW_UPDATE_END: KIND 0 programs the inactive slot, or in a download starts the image; KIND 1 keeps the application image. -/
def execFwUpdateEnd (flashFail : BitVec 2) (s : State) : Out :=
  .next (s.drunorRun 0x82 true (fun s =>
    let bs := s.drunor.fw
    if !s.quiet then s.wrongGov
    else match s.drunor.fwKind with
    | none => s.fail 0x0D 3
    | some true =>
      match s.imageFailure bs true with
      | some d => s.fwClosed.fail 0x08 d
      | none => ((s.fwClosed.onDrunor (fun d => { d with appStaged := some bs })).journalFree 5).ok [imageWord bs]
    | some false =>
      match s.slotFailure bs with
      | some d => s.fwClosed.fail 0x08 d
      | none =>
        if s.hmbx.bootWait then
          let s1 := (s.fwClosed.onMirl (fun m => { m with download := bs })).acceptDrunor .download bs
          (s1.onHmbx (fun h => { h with bootWait := false })).ok [imageWord bs]
        else if imgSeq bs ≤ s.rst.activeSeq then s.fwClosed.fail 0x04 0
        else if flashFail != 0 then (s.fwClosed.spoiltSlot bs.length).fail 0x09 (flashFail.setWidth 8)
        else ((s.fwClosed.putSlot bs).journalFree 5).ok [imageWord bs]))

/-- The image LOAD_APP names: SOURCE 1 is the active flash slot's. -/
def State.appSource (s : State) : Option (List Byte) :=
  if (s.param 0).getLsbD 0 then some (appPart (s.imageBytes (if s.rst.bootRec.slotB then .slotB else .slotA)))
  else s.drunor.appStaged

/-- LOAD_APP: authenticated, written to every eligible Voice and sealed. -/
def execLoadApp (s : State) : Out :=
  .next (s.drunorRun 0x90 true (fun s =>
    if s.rst.lc = .blank || s.rst.lc = .retired then s.fail 0x0E 2
    else if s.gov.state != .disarmed then s.wrongGov
    else if s.cres.season != .winter then s.fail 0x05 2
    else match s.appSource with
    | none => s.fail 0x0D 3
    | some bs =>
      match s.imageFailure bs true with
      | some d => s.fail 0x08 d
      | none =>
        let vs := voices.filter s.eligible
        let m := vs.foldl (fun (m : BitVec 4) v => m ||| oneHot 4 v.val) 0
        let s1 := s.withVoices (fun s =>
          let s1 := ((s.acceptApp bs).itcmSeal m).journalFree 5
          s1.ok [place 128 0 s1.rst.sealed])
        -- a Voice that sleeps is woken before the command runs (R87)
        s1.when (!(vs.map rqVoice).all s.clockable) (·.onHmbx (fun h => { h with inProgress := none }))))

/-! ## Events (R316, R317, Table 12-11) -/

/-- Spare cycles of a live Voice under the applied plan, B(T′) - load (R122, Table 05-6), in units of 4 cycles; zero where none are
left. -/
def State.spare (s : State) (v : Nat) : BitVec 24 :=
  if s.unis.alive.getLsbD v then
    let load := loadOf (validRanges s.unis.chmap.toList) (fun p =>
      (field s.unis.owner (2 * p.1) 2).toNat == v && !s.unis.planShed.getLsbD (rangeTrunk p.2).val)
    BitVec.ofNat 24 ((judgeBudget s.unis.planSweep s.drunor.judgePct - load) / 4)
  else 0

/-- The entries of a VOICE_OUT event. -/
def State.voiceOutEvent (s : State) (v : Vc) : List Native :=
  let o := s.unis.out[v]
  let head : Native := place 128 0 (0x03 : Byte)
  let lineMs : Native := place 128 96 s.lineMs
  [head ||| place 128 32 (BitVec.ofNat 2 v.val) ||| place 128 35 o.cause ||| place 128 38 o.frame ||| place 128 54 s.unis.planMask |||
      place 128 58 s.unis.planSweep ||| place 128 60 s.unis.planShed ||| place 128 76 s.frt ||| lineMs,
    head ||| place 128 32 s.unis.movedRanges ||| lineMs,
    (List.range 4).foldl (fun w k => w ||| place 128 (32 + 24 * k) (s.spare k)) head]

/-- The entries of an event that Drunor posts. -/
def State.eventWords (s : State) : Event → List Native
  | .entries es => es
  | .ready => s.readyWords
  | .voiceOut v => s.voiceOutEvent v
  | .voiceBack v => [place 128 0 (0x04 : Byte) ||| place 128 32 (BitVec.ofNat 2 v.val) ||| place 128 36 s.unis.planMask |||
      place 128 40 s.unis.planSweep ||| place 128 48 s.metr.frameNow ||| place 128 96 s.lineMs]
  | .govState => [place 128 0 (0x05 : Byte) ||| place 128 32 (govNumber s.gov.state) ||| place 128 40 s.gov.epoch |||
      place 128 64 s.gov.zone ||| place 128 96 s.lineMs]
  | .season => [place 128 0 (0x06 : Byte) ||| place 128 32 (seasonNumber s.cres.season) ||| place 128 96 s.lineMs]
  | .pair => [place 128 0 (0x08 : Byte) ||| place 128 32 (s.pairStatus.setWidth 32) ||| place 128 96 s.lineMs]
  | .time => [place 128 0 (0x09 : Byte) ||| place 128 32 s.metr.lineTime]

/-- An event pushed by Drunor through EVT_PUSH. -/
def execEvtPush (e : Event) (s : State) : Out :=
  .next (if (s.eventWords e).isEmpty then s else (s.stewWrite blkHmbx).pushEvent (s.eventWords e))

/-! ## Resets (R306, R343) -/

/-- RESET_DEVICE: answered before the reset, which DEFERRED_RESET_REQUEST asks for. -/
def execResetDevice (s : State) : Out :=
  .next (s.drunorRun 0xF0 (!(s.param 0).getLsbD 8) (fun s =>
    let l := (field (s.param 0) 0 2).toNat
    if l = 1 ∨ l = 2 then (s.onHmbx (fun h => { h with resetLater := some (levelOf l) })).ok [] else s.fail 0x04 0))

/-- Why no RESET_REQ can go to the peer, if it cannot (R326). -/
def State.peerRefusal (s : State) : Option Byte :=
  let m := s.mirl
  let observed := s.rst.opt.role == .a && m.linkUp && m.peerHello.isSome && !m.conflict && !m.versionOk
  if s.formed && m.linkUp || observed then none
  else if m.conflict then some 4
  else if m.observer then some 6
  else if m.linkUp && m.peerHello.isSome && !m.digestMatch then some 2
  else if m.linkUp && m.peerHello.isSome && !m.within 50000 then some 8
  else some 1

/-- RESET_DEVICE with W0 bit 8: RESET_REQ to the peer. -/
def execResetDevicePeer (s : State) : Out :=
  .next (s.drunorRun 0xF0 ((s.param 0).getLsbD 8) (fun s =>
    let l : BitVec 2 := field (s.param 0) 0 2
    if l != 1 && l != 2 then s.fail 0x04 0
    else match s.peerRefusal with
    | some d => s.fail 0x0F d
    | none => (s.mirlSend (.resetReq l)).ok []))

/-- 1 ms after DONE, Drunor sets RST_REQ (R306). -/
def execDeferredResetRequest (s : State) : Out :=
  match s.hmbx.resetLater with
  | some l =>
    if s.hmbx.done && !s.hmbx.busy then
      .next ((((s.advance (s.metr.lineTime + ms 1)).stewWrite blkRstc).onHmbx (fun h => { h with resetLater := none })).requestReset 4 l 0 false)
    else .next s
  | none => .next s

end Sys2Proof.Machine
end

