-- ==== Sys2Proof/Machine/Egress.lean ====
section
/-!
DEFINITION. The Voice egress hold (R109, R163): CPUSH (R151) and FDONE (R150), the release of a held transaction, its
acknowledgement, and STORE_LATE (Table 06-9).
-/
namespace Sys2Proof.Machine

/-! ## CPUSH (R151) -/

/-- The command word as the core pushes it: its own VID in ORIGIN, HW_ORIGIN clear. -/
def pushWord (c : Cl) (w : Native) : Native := putBit (putField w 80 (BitVec.ofNat 4 c.val)) 84 false

/-- CPUSH vd, gs: through the egress hold of a Voice, at once on the Steward; a tagged word is blocked and POISON is raised. -/
def execCpush (c : Cl) (vd gs : RegF) (s : State) : Out :=
  .next (s.issue c ((insnWord (.cpush c vd gs)).getD 0) (vok vd) true (fun s =>
    let d := s.readV c vd
    let r : BitVec 6 := field (s.core[c].readG gs).1 0 6
    let w := pushWord c d.1
    if d.2 then if s.frameBusy c then s else (s.fresh.intake c r w true).excPoison c 5 (vd.setWidth 32)
    else match voiceOf c with
    | some _ => s.fresh.hold c (.cpush w r)
    | none => (s.fresh.intake c r w false).finish c id))

/-! ## FDONE (R150) -/

/-- Held transactions that FDONE waits for: stores and command pushes. -/
def Egress.beforeFdone (e : Egress) : Bool := match e.op with | .fdone _ => false | _ => true

/-- FDONE gs: ILLEGAL on the Steward, REFUSED for a range that OWNER does not assign to this Voice. -/
def execFdone (c : Cl) (gs : RegF) (s : State) : Out :=
  .next (s.issue c ((insnWord (.fdone c gs)).getD 0) (voiceOf c).isSome true (fun s =>
    let r : BitVec 6 := field (s.core[c].readG gs).1 0 6
    if s.core[c].egress.any Egress.beforeFdone then s
    else match voiceOf c with
    | some v => if s.ownerOf r = v then s.hold c (.fdone r) else s.excRefused c (r.setWidth 32)
    | none => s))

/-- The FDONE that completes every range of a frame before its deadline ends riding (R267). -/
def State.endRide (s : State) : State :=
  match s.metr.judged with
  | some j =>
    if s.gov.riding && (j.ranges &&& ~~~ j.fdone) == 0 && decide (s.metr.lineTime < j.deadline) then
      s.onGov (fun g => { g with riding := false, unjudged := 0 })
    else s
  | none => s

/-- A range reaches FRAME_DONE: its words are released, its REHOME bit clears, riding may end, its dirty words leave (R123,
R150, R211, R267, R330). A deadline that has come is taken first (R23); a range already complete in this frame has no effect. -/
def State.frameDone (s : State) (v : Vc) (r : BitVec 6) : State :=
  let s := s.passDeadline s.metr.lineTime
  match s.metr.judged with
  | some j =>
    if j.fdone.getLsbD r.toNat || s.ownerOf r != v then s
    else
      let s1 := s.onMetr (fun m => { m with judged := some { j with fdone := putBit j.fdone r.toNat true } })
      (((s1.releaseRange v r).clearRehome r).endRide).mirrorFdone r j.frame
  | none => s

/-! ## Release and acknowledgement -/

/-- Position `i` of the hold marked as having left. -/
def State.markOut (s : State) (c : Cl) (i : Nat) (error : Bool) : State :=
  s.onCore c (fun k => { k with egress := k.egress.modify i (fun e => { e with released := true, error := error }) })

/-- A held store leaves and is performed at its target. -/
def State.releaseStore (s : State) (c : Cl) (i : Nat) (a : Word) (sz : Size) (d : Native) (p : Bool) : State :=
  let now := fun (s : State) =>
    let r := s.storeNow c a sz d p
    r.1.markOut c i r.2
  match regionOf c a.toNat with
  | .mem m off =>
    if m = .chord then
      if s.agentDead c then s.markOut c i true
      else s.whenAwake m off (sizeBytes sz) (fun s => (s.markOut c i false).access c ((CacheOp.store (sizeBytes sz) d p false).start a))
    else s.whenAwake m off (sizeBytes sz) now
  | _ => now s

/-- A transaction in register space. -/
def EgressOp.inRegs (c : Cl) : EgressOp → Bool
  | .store a _ _ _ => match regionOf c a.toNat with | .periph _ _ => true | _ => false
  | .read .. => true
  | _ => false

/-- A register-space read leaves the hold: its answer ends the load, or raises LOAD_BUS. -/
def State.releaseRead (s : State) (c : Cl) (i : Nat) (a : Word) (sz : Size) (op : CacheOp) : State :=
  match regionOf c a.toNat with
  | .periph b off =>
    match s.regLoad (initiatorOf c) b off sz with
    | (s1, d, err) =>
      let s2 := (s1.markOut c i err).unblock c
      if err then s2.excLoad c a
      else match op with
      | .load kind rd => s2.finish c (fun k => k.writeG rd (kind.extend d) false)
      | .lane vd => s2.finish c (fun k => k.writeV vd d false 8)
      | _ => s2
  | _ => s.markOut c i false

/-- The oldest held transaction leaves, in order: an isolated or stopped Voice releases nothing more (R110, R153), a store that
still waits for its line holds back those behind it (R133), and a Voice has one register-space access outstanding (R167). -/
def execEgressRelease (v : Vc) (s : State) : Out :=
  let c := vcl v
  let k := s.core[c]
  if k.inReset || k.doubleFault || s.isolated c || s.powerOf (rqVoice v) == .off || s.storeWaits c then .next s
  else match k.egress.zipIdx.find? (fun x => !x.1.released) with
  | some (e, i) =>
    if e.op.inRegs c && k.egress.any (fun x => x.released && x.op.inRegs c) then .next s
    else match e.op with
    | .store a sz d p => .next (s.releaseStore c i a sz d p)
    | .read a sz op => .next (s.releaseRead c i a sz op)
    | .cpush w r => .next ((s.markOut c i false).intake c r w false)
    | .fdone r => .next ((s.markOut c i false).frameDone v r)
  | none => .next s

/-- The oldest transaction, once performed, is acknowledged and its position freed; an error is STORE_LATE. -/
def execEgressAck (v : Vc) (s : State) : Out :=
  let c := vcl v
  match s.core[c].egress with
  | e :: rest =>
    if s.unperformed c e then .next s
    else
      let late := match e.op with | .store a _ _ _ => if e.error then [a] else [] | _ => []
      .next (s.onCore c (fun k => { k with egress := rest, late := k.late ++ late }))
  | [] => .next s

/-- STORE_LATE is taken at an instruction boundary (Table 06-9). -/
def execStoreLate (c : Cl) (s : State) : Out :=
  match s.core[c].late with
  | a :: rest =>
    let s1 := s.onCore c (fun k => { k with late := [] })
    if s1.runnable c && !s.frameBusy c then .next ((s.onCore c (fun k => { k with late := rest })).excLate c a) else .next s
  | [] => .next s

end Sys2Proof.Machine
end

