-- ==== Sys2Proof/Machine/Special.lean ====
section
/-!
DEFINITION. The system registers (R130, Table 06-1) with SRR and SRW, and the accesses of Cue and ICU that the table lists apart
(R154, R158, R159).
-/
namespace Sys2Proof.Machine

/-! ## Cue reads (R158) -/

/-- The ready slot of highest PRIO, the lowest index among equals. -/
def Core.cuePick (k : Core) : Option Nat :=
  (setBits k.cueReady).foldl (fun b i =>
    match b with
    | none => some i
    | some j => if (getN k.cueSlot j ⟨0, 0, 0, false⟩).prio < (getN k.cueSlot i ⟨0, 0, 0, false⟩).prio then some i else some j) none

/-- CUE_NEXT as read: [4:0] slot, [23:8] ENTRY, [31] EMPTY. -/
def Core.cueNextWord (k : Core) : Word :=
  match k.cuePick with
  | some i => place 32 0 (BitVec.ofNat 5 i) ||| place 32 8 (getN k.cueSlot i ⟨0, 0, 0, false⟩).entry
  | none => 0x80000000

/-- The core after the read: the selected slot's READY bit is clear. -/
def Core.cuePop (k : Core) : Core :=
  match k.cuePick with
  | some i => { k with cueReady := putBit k.cueReady i false }
  | none => k

/-- One cycle of the Cue with a CUE_NEXT read: posts, cancels, then the selection (R159); source 13 is set when CUE_READY is
left non-zero from zero. -/
def Core.cueRead (k : Core) (posts : List Word) (cancel : Word) : Core × Word :=
  let k1 := k.cueCycle posts cancel
  let k2 := k1.cuePop
  (if k.cueReady = 0 && k2.cueReady != 0 then k2.pend 13 else k2, k1.cueNextWord)

/-! ## ICU -/

/-- Sources that can be pending on a cluster: 0 to 14, and on the Steward 16 to 54 (Table 06-10). -/
def icuSources (c : Cl) : BitVec 64 := if c = stw then 0x007FFFFFFFFF7FFF else 0x0000000000007FFF

/-- A write of ICU_SET_0 or ICU_SET_1. -/
def State.icuSet (s : State) (c : Cl) (hi : Bool) (mask : Word) : State :=
  s.onCore c (fun k => { k with icuPend := k.icuPend ||| (place 64 (if hi then 32 else 0) mask &&& icuSources c) })

/-! ## System registers (Table 06-1) -/

/-- The numbers that Table 06-1 implements. -/
def sysReg (n : Nat) : Bool :=
  decide (n ≤ 0x0A) || (decide (0x10 ≤ n) && decide (n ≤ 0x16)) || (decide (0x20 ≤ n) && decide (n ≤ 0x25)) ||
    (decide (0x28 ≤ n) && decide (n ≤ 0x35)) || (decide (0x100 ≤ n) && decide (n < 0x120))

/-- CUE_SLOT_k as a word. -/
def CueSlot.word (x : CueSlot) : Word :=
  place 32 0 x.entry ||| place 32 16 x.prio ||| place 32 20 x.bind ||| place 32 24 (bit x.armed)

/-- A system register as read; write-one-to-set registers read as zero. -/
def Core.sysRead (k : Core) (c : Cl) (n : Nat) : Word :=
  match n with
  | 0x00 => BitVec.ofNat 32 c.val
  | 0x01 => k.status
  | 0x02 => k.epc
  | 0x03 => k.ecause.setWidth 32
  | 0x04 => k.eaddr
  | 0x05 => place 32 9 k.vtable
  | 0x06 => k.loopStart.setWidth 32
  | 0x07 => k.loopEnd.setWidth 32
  | 0x08 => k.loopCount
  | 0x09 => putBit k.gTag 0 false
  | 0x0A => k.vTag.setWidth 32
  | 0x10 => half k.cycle false
  | 0x11 => k.cycleSnap.getD (half k.cycle true)
  | 0x12 => k.frame.setWidth 32
  | 0x13 => k.poisonJudged
  | 0x14 => k.divAbandon
  | 0x16 => k.wdogLimit.setWidth 32
  | 0x20 => half k.icuEn false
  | 0x21 => half k.icuEn true
  | 0x22 => half k.icuPend false
  | 0x23 => half k.icuPend true
  | 0x30 => k.cueNextWord
  | 0x31 => k.cueReady
  | 0x34 => k.cueCancelWon
  | 0x35 => k.cueMerge
  | _ =>
    if 0x28 ≤ n ∧ n ≤ 0x2F then getN k.icuLvl (n - 0x28) 0
    else if 0x100 ≤ n ∧ n < 0x120 then (getN k.cueSlot (n - 0x100) ⟨0, 0, 0, false⟩).word
    else 0

/-- What a read leaves: CYCLE_LO holds the high half for the next access (R8), CUE_NEXT pops. -/
def Core.sysAfterRead (k : Core) (n : Nat) : Core :=
  let k1 := { k with cycleSnap := if n = 0x10 then some (half k.cycle true) else none }
  if n = 0x30 then k1.cuePop else k1

/-- The fields of a system register that only the core holds, written. -/
def Core.sysPut (k : Core) (n : Nat) (w : Word) : Core :=
  match n with
  | 0x01 => { k with ie := w.getLsbD 5, maskLvl := field w 8 5 }
  | 0x05 => { k with vtable := field w 9 23 }
  | 0x13 => { k with poisonJudged := w }
  | 0x14 => { k with divAbandon := w }
  | 0x20 => { k with icuEn := putField k.icuEn 0 w }
  | 0x21 => { k with icuEn := putField k.icuEn 32 w }
  | 0x22 => { k with icuPend := k.icuPend &&& ~~~ place 64 0 w }
  | 0x23 => { k with icuPend := k.icuPend &&& ~~~ place 64 32 w }
  | 0x32 => k.cueUpdate [w] 0
  | 0x33 => k.cueUpdate [] w
  | 0x34 => { k with cueCancelWon := w }
  | 0x35 => { k with cueMerge := w }
  | _ =>
    if 0x28 ≤ n ∧ n ≤ 0x2F then { k with icuLvl := updN k.icuLvl (n - 0x28) (fun _ => w) }
    else if 0x100 ≤ n ∧ n < 0x120 then
      { k with cueSlot := updN k.cueSlot (n - 0x100) (fun _ => ⟨field w 0 16, field w 16 3, field w 20 3, w.getLsbD 24⟩) }
    else k

/-- A write of a system register; read-only fields ignore it (R130). -/
def State.sysWrite (s : State) (c : Cl) (n : Nat) (w : Word) : State :=
  let s1 := s.onCore c (fun k => { k with cycleSnap := none }.sysPut n w)
  if n = 0x15 then s1.when (w.getLsbD 0) (·.wdogKick c)
  else if n = 0x24 then s1.icuSet c false w
  else if n = 0x25 then s1.icuSet c true w
  else s1

/-- The system register number of an instruction: IMM[11:0]. -/
def sysNumber (n : BitVec 16) : Nat := (field n 0 12).toNat

/-- SRR (R130). -/
def execSrr (c : Cl) (rd : RegF) (n : BitVec 16) (s : State) : Out :=
  .next (s.issue c ((insnWord (.srr c rd n)).getD 0) (sysReg (sysNumber n)) true (fun s =>
    s.finish c (fun k => (k.sysAfterRead (sysNumber n)).writeG rd (k.sysRead c (sysNumber n)) false)))

/-- SRW: a tagged source is consumed (R130). -/
def execSrw (c : Cl) (rs1 : RegF) (n : BitVec 16) (s : State) : Out :=
  .next (s.issue c ((insnWord (.srw c rs1 n)).getD 0) (sysReg (sysNumber n)) true (fun s =>
    let w := s.core[c].readG rs1
    if w.2 then s.excPoison c 3 (rs1.setWidth 32) else (s.sysWrite c (sysNumber n) w.1).finish c id))

/-! ## Accesses that the table lists apart -/

/-- A write of ICU_SET by the cluster's own core. -/
def execIcuSet (c : Cl) (hi : Bool) (mask : Word) (s : State) : Out :=
  if s.runnable c then .next (s.icuSet c hi mask) else .next s

/-- A write of CUE_POST with the cancels of the same cycle. -/
def execCuePost (c : Cl) (mask : Word) (cancel : Word) (s : State) : Out :=
  if s.runnable c then .next (s.onCore c (fun k => k.cueUpdate [mask] cancel)) else .next s

/-- A write of CUE_CANCEL with the posts of the same cycle. -/
def execCueCancel (c : Cl) (mask : Word) (posts : List Word) (s : State) : Out :=
  if s.runnable c then .next (s.onCore c (fun k => k.cueUpdate posts mask)) else .next s

/-- A read of CUE_NEXT with the posts and cancels of the same cycle. -/
def execCueNext (c : Cl) (posts : List Word) (cancel : Word) (s : State) : Out :=
  if s.runnable c then
    let r := s.core[c].cueRead posts cancel
    .next ((s.onCore c (fun _ => r.1)).answer (r.2.setWidth 128) false false)
  else .next s

end Sys2Proof.Machine
end

