-- ==== Sys2Proof/Machine/Interrupt.lean ====
section
/-!
DEFINITION. Interrupt entry (R154, R155, with the abandoned divide of R147) and the end of WAIT (R160).
-/
namespace Sys2Proof.Machine

/-- The source whose vector an entry reads: the one accepted, or a source of a higher level that became pending before step 3
(R155). -/
def Core.entrySource (k : Core) (first : Nat) : Nat :=
  match k.acceptable with
  | some best => if k.srcLevel first < k.srcLevel best then best else first
  | none => first

/-- Interrupt entry: not while a FENCE or IFLUSH performs (R154), and behind older held stores to its frame (R133). `late` are sources that become pending before the vector is read. -/
def execInterruptEntry (c : Cl) (inDivide : Bool) (late : BitVec 64) (s : State) : Out :=
  if s.runnable c && !s.core[c].draining && !s.frameBusy c then
    match s.core[c].acceptable with
    | some first =>
      let s1 := s.onCore c (fun k => { k with
        icuPend := k.icuPend ||| (late &&& icuSources c)
        divAbandon := if inDivide then k.divAbandon + 1 else k.divAbandon })
      let src := s1.core[c].entrySource first
      .next (s1.entry c s.core[c].pc (fun k => (src, BitVec.ofNat 5 (k.srcLevel src)))
        (fun k => { k with icuPend := putBit k.icuPend src false }))
    | none => .next s
  else .next s

/-- A core in WAIT resumes when CUE_READY is non-zero or a source is acceptable, once its cluster is awake (R160, R242). -/
def execWaitWake (c : Cl) (s : State) : Out :=
  let k := s.core[c]
  if k.waiting && (s.powerOf (rqCl c) == .idle || s.powerOf (rqCl c) == .run) && !s.isolated c &&
      (k.cueReady != 0 || k.acceptable.isSome) then
    .next (s.withWdogs (fun s => (s.onCore c (fun k => { k with waiting := false })).setPower (rqCl c) .run))
  else .next s

end Sys2Proof.Machine
end

