-- ==== Sys2Proof/Machine/Flags.lean ====
section
/-!
DEFINITION. The verdict bits of JUDGE (R140, Tables 06-6 and 06-7) and the result of LCRC: the core's only condition bits that
an instruction computes together (the core has no flag register).
-/
namespace Sys2Proof.Machine

/-- The trip causes of a record against a limit word, bits 0 to 11 of Table 06-7. -/
def verdictCauses (r lim : Native) : BitVec 12 :=
  let vcell : BitVec 20 := field r 0 20
  let icell : BitVec 24 := field r 20 24
  let tcell : BitVec 12 := field r 44 12
  let mode : BitVec 3 := field r 56 3
  let vhi : BitVec 20 := field lim 0 20
  let vlo : BitVec 20 := field lim 20 20
  let ihi : BitVec 24 := field lim 40 24
  let ilo : BitVec 24 := field lim 64 24
  let thi : BitVec 12 := field lim 88 12
  let tlo : BitVec 12 := field lim 100 12
  let vloApplies := !lim.getLsbD 116 || r.getLsbD 59
  place 12 0 (bit (decide (vhi < vcell))) |||
  place 12 1 (bit (decide (vcell < vlo) && vloApplies)) |||
  place 12 2 (bit (ihi.slt icell)) |||
  place 12 3 (bit (icell.slt ilo)) |||
  place 12 4 (bit (thi.slt tcell)) |||
  place 12 5 (bit (tcell.slt tlo)) |||
  place 12 6 (bit (crc16Word r != field r 112 16)) |||
  place 12 7 (bit (r.getLsbD 63)) |||
  place 12 8 (bit (r.getLsbD 62)) |||
  place 12 9 (bit (r.getLsbD 60)) |||
  place 12 10 (bit (r.getLsbD 61)) |||
  place 12 11 (bit (mode == 6 || mode == 7))

/-- The verdict code (Table 06-7): the causes, the ENERGIZED copy at 12, TRIP at 15. -/
def verdictCode (r lim : Native) : BitVec 16 :=
  let c := verdictCauses r lim
  place 16 0 c ||| place 16 12 (bit (r.getLsbD 59)) ||| place 16 15 (bit (c != 0))

/-- The code "unjudgeable" (R96, R140). -/
def unjudgeable : Word := 0xFFFF

/-- LCRC: 0 when va[127:112] equals the CRC-16 over va[111:0], else 0x1_0000 plus the computed CRC. -/
def lcrcValue (r : Native) : Word :=
  if crc16Word r = field r 112 16 then 0 else 0x10000 + (crc16Word r).setWidth 32

end Sys2Proof.Machine
end

