-- ==== Sys2Proof/Machine/Lane.lean ====
section
/-!
DEFINITION. The lane operations (06, "The lane operations work as follows", R136, R140, Table 06-5).
-/
namespace Sys2Proof.Machine

/-! ## Shared forms -/

/-- A lane result goes to a v register after `lat` issued instructions (R136). -/
def State.laneTo (s : State) (c : Cl) (vd : RegF) (v : Native) (tag : Bool) (lat : Nat) : State :=
  s.finish c (fun k => k.writeV vd v tag lat)

/-- An operation on one lane register. -/
def State.lane1 (s : State) (c : Cl) (i : Instr) (vd va : RegF) (lat : Nat) (f : Native → Native) : State :=
  s.issue c ((insnWord i).getD 0) (vok vd && vok va) true (fun s =>
    let a := s.readV c va
    s.fresh.laneTo c vd (f a.1) a.2 lat)

/-- An operation on two lane registers. -/
def State.lane2 (s : State) (c : Cl) (i : Instr) (vd va vb : RegF) (lat : Nat) (f : Native → Native → Native) : State :=
  s.issue c ((insnWord i).getD 0) (vok vd && vok va && vok vb) true (fun s =>
    let a := s.readV c va
    let b := s.fresh.readV c vb
    s.fresh.fresh.laneTo c vd (f a.1 b.1) (a.2 || b.2) lat)

/-- An operation on two lane registers that also reads its destination. -/
def State.lane3 (s : State) (c : Cl) (i : Instr) (vd va vb : RegF) (lat : Nat) (f : Native → Native → Native → Native) : State :=
  s.issue c ((insnWord i).getD 0) (vok vd && vok va && vok vb) true (fun s =>
    let a := s.readV c va
    let b := s.fresh.readV c vb
    let d := s.fresh.fresh.readV c vd
    s.fresh.fresh.fresh.laneTo c vd (f d.1 a.1 b.1) (a.2 || b.2 || d.2) lat)

/-- A word of a function of each 32-bit lane. -/
def mapLanes (f : Nat → Word) : Native :=
  place 128 0 (f 0) ||| place 128 32 (f 1) ||| place 128 64 (f 2) ||| place 128 96 (f 3)

/-- Lane `k` of a word. -/
def lane32 (x : Native) (k : Nat) : Word := field x (32 * k) 32

/-- The signed 64-bit sum of the four signed lane products. -/
def dotLanes (a b : Native) : BitVec 64 :=
  let p := fun k => (lane32 a k).signExtend 64 * (lane32 b k).signExtend 64
  p 0 + p 1 + p 2 + p 3

/-! ## Moves and logic -/

def execLmov (c : Cl) (vd va : RegF) (s : State) : Out := .next (s.lane1 c (.lmov c vd va) vd va 1 id)
def execLand (c : Cl) (vd va vb : RegF) (s : State) : Out := .next (s.lane2 c (.land c vd va vb) vd va vb 1 (· &&& ·))
def execLor (c : Cl) (vd va vb : RegF) (s : State) : Out := .next (s.lane2 c (.lor c vd va vb) vd va vb 1 (· ||| ·))
def execLxor (c : Cl) (vd va vb : RegF) (s : State) : Out := .next (s.lane2 c (.lxor c vd va vb) vd va vb 1 (· ^^^ ·))
def execLaddW (c : Cl) (vd va vb : RegF) (s : State) : Out :=
  .next (s.lane2 c (.laddW c vd va vb) vd va vb 1 (fun a b => mapLanes (fun k => lane32 a k + lane32 b k)))
def execLsubW (c : Cl) (vd va vb : RegF) (s : State) : Out :=
  .next (s.lane2 c (.lsubW c vd va vb) vd va vb 1 (fun a b => mapLanes (fun k => lane32 a k - lane32 b k)))

/-- LSPLAT copies gs into all four lanes. -/
def execLsplat (c : Cl) (vd gs : RegF) (s : State) : Out :=
  .next (s.issue c ((insnWord (.lsplat c vd gs)).getD 0) (vok vd) true (fun s =>
    let g := s.core[c].readG gs
    s.laneTo c vd (mapLanes (fun _ => g.1)) g.2 1))

/-- LINS writes gs into one lane and leaves the others, so it also reads vd. -/
def execLins (c : Cl) (vd gs : RegF) (lane : BitVec 2) (s : State) : Out :=
  .next (s.issue c ((insnWord (.lins c vd gs lane)).getD 0) (vok vd) true (fun s =>
    let g := s.core[c].readG gs
    let d := s.readV c vd
    s.fresh.laneTo c vd (putField d.1 (32 * lane.toNat) g.1) (g.2 || d.2) 1))

/-- LSHL and LSHR shift by whole bytes, filling with zeros. -/
def execLshl (c : Cl) (vd va : RegF) (n : BitVec 4) (s : State) : Out :=
  .next (s.lane1 c (.lshl c vd va n) vd va 1 (fun a => a <<< (8 * n.toNat)))
def execLshr (c : Cl) (vd va : RegF) (n : BitVec 4) (s : State) : Out :=
  .next (s.lane1 c (.lshr c vd va n) vd va 1 (fun a => a >>> (8 * n.toNat)))

/-! ## Multiply-accumulate -/

/-- LMAC.P adds the low 32 bits of each lane product to the lane of vd. -/
def execLmacP (c : Cl) (vd va vb : RegF) (s : State) : Out :=
  .next (s.lane3 c (.lmacP c vd va vb) vd va vb 3 (fun d a b => mapLanes (fun k => lane32 d k + lane32 a k * lane32 b k)))

/-- LMAC.D adds the sum of the signed lane products to vd[63:0] and leaves vd[127:64]. -/
def execLmacD (c : Cl) (vd va vb : RegF) (s : State) : Out :=
  .next (s.lane3 c (.lmacD c vd va vb) vd va vb 4 (fun d a b => putField d 0 (field d 0 64 + dotLanes a b)))

/-! ## Results in scalar registers -/

/-- LCRC checks the CRC-16 of a record. -/
def execLcrc (c : Cl) (gd va : RegF) (s : State) : Out :=
  .next (s.issue c ((insnWord (.lcrc c gd va)).getD 0) (vok va) true (fun s =>
    let a := s.readV c va
    s.fresh.finish c (fun k => k.writeG gd (lcrcValue a.1) a.2)))

/-- JUDGE: a tagged operand gives "unjudgeable" without a tag and counts POISON_JUDGED (R96, R140). -/
def execJudge (c : Cl) (gd va vb : RegF) (s : State) : Out :=
  .next (s.issue c ((insnWord (.judge c gd va vb)).getD 0) (vok va && vok vb) true (fun s =>
    let a := s.readV c va
    let b := s.fresh.readV c vb
    s.fresh.fresh.finish c (fun k =>
      if a.2 || b.2 then { k.writeG gd unjudgeable false with poisonJudged := k.poisonJudged + 1 }
      else k.writeG gd ((verdictCode a.1 b.1).setWidth 32) false)))

/-- The field of a word from bit `pos`, `n` bits wide, zero- or sign-extended. -/
def laneField (x : Native) (pos n : Nat) (sx : Bool) : Word :=
  let v : Word := (x >>> pos).setWidth 32 &&& BitVec.ofNat 32 (2 ^ n - 1)
  if sx && v.getLsbD (n - 1) then v ||| ~~~ BitVec.ofNat 32 (2 ^ n - 1) else v

/-- LEXT. A field that reaches past bit 127 has no stated value: a free value (log 40). -/
def execLext (c : Cl) (gd va : RegF) (pos : BitVec 7) (wm1 : BitVec 5) (sx : Bool) (zero : BitVec 3) (s : State) : Out :=
  .next (s.issue c ((insnWord (.lext c gd va pos wm1 sx zero)).getD 0) (vok va && zero == 0) true (fun s =>
    let a := s.readV c va
    let v := if pos.toNat + wm1.toNat < 128 then laneField a.1 pos.toNat (wm1.toNat + 1) sx
      else (Config.freeNative s.fresh.free).setWidth 32
    s.fresh.fresh.finish c (fun k => k.writeG gd v a.2)))

end Sys2Proof.Machine
end

