-- ==== Sys2Proof/Machine/LoadStore.lean ====
section
/-!
DEFINITION. Scalar loads and stores (R133, Table 06-3), atomics (R148), LLD and LST (R136, R139).
-/
namespace Sys2Proof.Machine

/-! ## Scalar loads -/

/-- The width of a scalar load. -/
def LoadKind.size : LoadKind → Size
  | .lb | .lbu => .b1 | .lh | .lhu => .b2 | .lw => .b4

/-- A scalar load. -/
def State.scalarLoad (s : State) (c : Cl) (i : Instr) (kind : LoadKind) (rd rs1 : RegF) (imm : BitVec 16) : State :=
  s.issue c ((insnWord i).getD 0) true true (fun s =>
    s.withAddress c rs1 (simm imm) (fun s a =>
      s.coreLoad c a kind.size (.load kind rd) (fun s _ v => s.finish c (fun k => k.writeG rd (kind.extend v.1) v.2))))

def execLb (c : Cl) (rd rs1 : RegF) (imm : BitVec 16) (s : State) : Out := .next (s.scalarLoad c (.lb c rd rs1 imm) .lb rd rs1 imm)
def execLh (c : Cl) (rd rs1 : RegF) (imm : BitVec 16) (s : State) : Out := .next (s.scalarLoad c (.lh c rd rs1 imm) .lh rd rs1 imm)
def execLw (c : Cl) (rd rs1 : RegF) (imm : BitVec 16) (s : State) : Out := .next (s.scalarLoad c (.lw c rd rs1 imm) .lw rd rs1 imm)
def execLbu (c : Cl) (rd rs1 : RegF) (imm : BitVec 16) (s : State) : Out := .next (s.scalarLoad c (.lbu c rd rs1 imm) .lbu rd rs1 imm)
def execLhu (c : Cl) (rd rs1 : RegF) (imm : BitVec 16) (s : State) : Out := .next (s.scalarLoad c (.lhu c rd rs1 imm) .lhu rd rs1 imm)

/-! ## Scalar stores -/

/-- A scalar store. -/
def State.scalarStore (s : State) (c : Cl) (i : Instr) (sz : Size) (rs2 rs1 : RegF) (imm : BitVec 16) : State :=
  s.issue c ((insnWord i).getD 0) true true (fun s =>
    s.withAddress c rs1 (simm imm) (fun s a =>
      let d := s.core[c].readG rs2
      s.coreStore c a sz ((d.1.setWidth 128) &&& byteMask 0 (sizeBytes sz)) d.2 rs2))

def execSb (c : Cl) (rs2 rs1 : RegF) (imm : BitVec 16) (s : State) : Out := .next (s.scalarStore c (.sb c rs2 rs1 imm) .b1 rs2 rs1 imm)
def execSh (c : Cl) (rs2 rs1 : RegF) (imm : BitVec 16) (s : State) : Out := .next (s.scalarStore c (.sh c rs2 rs1 imm) .b2 rs2 rs1 imm)
def execSw (c : Cl) (rs2 rs1 : RegF) (imm : BitVec 16) (s : State) : Out := .next (s.scalarStore c (.sw c rs2 rs1 imm) .b4 rs2 rs1 imm)

/-! ## Atomics (R148) -/

/-- An atomic: only in Chord and naturally aligned, else STORE_BUS; after every older store has left the egress hold and been
acknowledged. -/
def State.atomicOp (s : State) (c : Cl) (i : Instr) (op : AtomicOp) (rd rs1 rs2 : RegF) : State :=
  s.issue c ((insnWord i).getD 0) true true (fun s =>
    s.withAddress c rs1 0 (fun s a =>
      match regionOf c a.toNat with
      | .mem .chord off =>
        if off % 4 = 0 && !s.agentDead c then
          if s.core[c].egress.isEmpty then
            s.whenAwake .chord off 4 (fun s =>
              let src := s.core[c].readG rs2
              let cmp := s.core[c].readG rd
              s.access c ((CacheOp.atomic op rd src.1 src.2 cmp.1 cmp.2).start a))
          else s
        else s.excStore c a
      | _ => s.excStore c a))

def execAtswp (c : Cl) (rd rs1 rs2 : RegF) (s : State) : Out := .next (s.atomicOp c (.atswp c rd rs1 rs2) .swp rd rs1 rs2)
def execAtadd (c : Cl) (rd rs1 rs2 : RegF) (s : State) : Out := .next (s.atomicOp c (.atadd c rd rs1 rs2) .add rd rs1 rs2)
def execAtand (c : Cl) (rd rs1 rs2 : RegF) (s : State) : Out := .next (s.atomicOp c (.atand c rd rs1 rs2) .and rd rs1 rs2)
def execAtor (c : Cl) (rd rs1 rs2 : RegF) (s : State) : Out := .next (s.atomicOp c (.ator c rd rs1 rs2) .or rd rs1 rs2)
def execAtxor (c : Cl) (rd rs1 rs2 : RegF) (s : State) : Out := .next (s.atomicOp c (.atxor c rd rs1 rs2) .xor rd rs1 rs2)
def execAtcas (c : Cl) (rd rs1 rs2 : RegF) (s : State) : Out := .next (s.atomicOp c (.atcas c rd rs1 rs2) .cas rd rs1 rs2)

/-! ## Lane accesses -/

/-- L of LLD by region (Table 06-5); regions the table does not list take the longest (log 41). -/
def lldLatency (c : Cl) : Region → Nat
  | .mem (.dtcm d) _ => if d = c then 2 else 8
  | .mem .chord _ => 3
  | .mem (.score _) _ | .mem .verdict _ => 4
  | _ => 8

/-- LLD: a 128-bit load at a 16-byte-aligned address of any region, else LOAD_BUS (R139). -/
def execLld (c : Cl) (vd rs1 : RegF) (imm : BitVec 16) (s : State) : Out :=
  .next (s.issue c ((insnWord (.lld c vd rs1 imm)).getD 0) (vok vd) true (fun s =>
    s.withAddress c rs1 (simm imm) (fun s a =>
      if a.toNat % 16 = 0 then
        s.coreLoad c a .b16 (.lane vd) (fun s r v => s.finish c (fun k => k.writeV vd v.1 v.2 (lldLatency c r)))
      else s.excLoad c a)))

/-- LST: a 128-bit store at a 16-byte-aligned address, else STORE_BUS (R139). -/
def execLst (c : Cl) (vs rs1 : RegF) (imm : BitVec 16) (s : State) : Out :=
  .next (s.issue c ((insnWord (.lst c vs rs1 imm)).getD 0) (vok vs) true (fun s =>
    s.withAddress c rs1 (simm imm) (fun s a =>
      if a.toNat % 16 = 0 then
        let d := s.readV c vs
        s.fresh.coreStore c a .b16 d.1 d.2 vs
      else s.excStore c a)))

end Sys2Proof.Machine
end

