-- ==== Sys2Proof/Machine/Scalar.lean ====
section
/-!
DEFINITION. The scalar arithmetic instructions: ALU, ALU immediate, LHI, shifts (R131, Table 06-3) and the MDU (R146).
-/
namespace Sys2Proof.Machine

/-! ## Shared forms -/

/-- An instruction on two scalar registers: the result, tagged when an operand is (R129). -/
def State.alu (s : State) (c : Cl) (i : Instr) (rd rs1 rs2 : RegF) (f : Word → Word → Word) : State :=
  s.issue c ((insnWord i).getD 0) true true (fun s => s.finish c (fun k =>
    let a := k.readG rs1
    let b := k.readG rs2
    k.writeG rd (f a.1 b.1) (a.2 || b.2)))

/-- An instruction on a scalar register and a constant. -/
def State.aluImm (s : State) (c : Cl) (i : Instr) (rd rs1 : RegF) (legal : Bool) (f : Word → Word) : State :=
  s.issue c ((insnWord i).getD 0) legal true (fun s => s.finish c (fun k =>
    let a := k.readG rs1
    k.writeG rd (f a.1) a.2))

/-- A shift by a register. The spec states no result for an amount of 32 or more: a free value (log 39). -/
def State.shiftReg (s : State) (c : Cl) (i : Instr) (rd rs1 rs2 : RegF) (f : Word → Nat → Word) : State :=
  s.issue c ((insnWord i).getD 0) true true (fun s =>
    let open' : Word := (Config.freeNative s.free).setWidth 32
    let s1 := s.when (decide (32 ≤ (s.core[c].readG rs2).1.toNat)) State.fresh
    s1.finish c (fun k =>
      let a := k.readG rs1
      let b := k.readG rs2
      k.writeG rd (if b.1.toNat < 32 then f a.1 b.1.toNat else open') (a.2 || b.2)))

/-- A truth value as a register. -/
def flagWord (b : Bool) : Word := if b then 1 else 0

/-! ## ALU -/

def execAdd (c : Cl) (rd rs1 rs2 : RegF) (s : State) : Out := .next (s.alu c (.add c rd rs1 rs2) rd rs1 rs2 (· + ·))
def execSub (c : Cl) (rd rs1 rs2 : RegF) (s : State) : Out := .next (s.alu c (.sub c rd rs1 rs2) rd rs1 rs2 (· - ·))
def execAnd (c : Cl) (rd rs1 rs2 : RegF) (s : State) : Out := .next (s.alu c (.and c rd rs1 rs2) rd rs1 rs2 (· &&& ·))
def execOr (c : Cl) (rd rs1 rs2 : RegF) (s : State) : Out := .next (s.alu c (.or c rd rs1 rs2) rd rs1 rs2 (· ||| ·))
def execXor (c : Cl) (rd rs1 rs2 : RegF) (s : State) : Out := .next (s.alu c (.xor c rd rs1 rs2) rd rs1 rs2 (· ^^^ ·))

def execSll (c : Cl) (rd rs1 rs2 : RegF) (s : State) : Out :=
  .next (s.shiftReg c (.sll c rd rs1 rs2) rd rs1 rs2 (fun a n => a <<< n))
def execSrl (c : Cl) (rd rs1 rs2 : RegF) (s : State) : Out :=
  .next (s.shiftReg c (.srl c rd rs1 rs2) rd rs1 rs2 (fun a n => a >>> n))
def execSra (c : Cl) (rd rs1 rs2 : RegF) (s : State) : Out :=
  .next (s.shiftReg c (.sra c rd rs1 rs2) rd rs1 rs2 (fun a n => a.sshiftRight n))

def execSlt (c : Cl) (rd rs1 rs2 : RegF) (s : State) : Out :=
  .next (s.alu c (.slt c rd rs1 rs2) rd rs1 rs2 (fun a b => flagWord (a.slt b)))
def execSltu (c : Cl) (rd rs1 rs2 : RegF) (s : State) : Out :=
  .next (s.alu c (.sltu c rd rs1 rs2) rd rs1 rs2 (fun a b => flagWord (a.ult b)))

/-! ## Immediates: the immediate is signed (Table 06-2) -/

def execAddi (c : Cl) (rd rs1 : RegF) (imm : BitVec 16) (s : State) : Out :=
  .next (s.aluImm c (.addi c rd rs1 imm) rd rs1 true (· + simm imm))
def execAndi (c : Cl) (rd rs1 : RegF) (imm : BitVec 16) (s : State) : Out :=
  .next (s.aluImm c (.andi c rd rs1 imm) rd rs1 true (· &&& simm imm))
def execOri (c : Cl) (rd rs1 : RegF) (imm : BitVec 16) (s : State) : Out :=
  .next (s.aluImm c (.ori c rd rs1 imm) rd rs1 true (· ||| simm imm))
def execXori (c : Cl) (rd rs1 : RegF) (imm : BitVec 16) (s : State) : Out :=
  .next (s.aluImm c (.xori c rd rs1 imm) rd rs1 true (· ^^^ simm imm))
def execSlti (c : Cl) (rd rs1 : RegF) (imm : BitVec 16) (s : State) : Out :=
  .next (s.aluImm c (.slti c rd rs1 imm) rd rs1 true (fun a => flagWord (a.slt (simm imm))))

/-- LHI: an RS1 field other than g0 is ILLEGAL (R131). -/
def execLhi (c : Cl) (rd rs1 : RegF) (imm : BitVec 16) (s : State) : Out :=
  .next (s.aluImm c (.lhi c rd rs1 imm) rd rs1 (rs1 == 0) (fun _ => imm.setWidth 32 <<< 16))

def execSlli (c : Cl) (rd rs1 : RegF) (sh : BitVec 5) (s : State) : Out :=
  .next (s.aluImm c (.slli c rd rs1 sh) rd rs1 true (fun a => a <<< sh.toNat))
def execSrli (c : Cl) (rd rs1 : RegF) (sh : BitVec 5) (s : State) : Out :=
  .next (s.aluImm c (.srli c rd rs1 sh) rd rs1 true (fun a => a >>> sh.toNat))
def execSrai (c : Cl) (rd rs1 : RegF) (sh : BitVec 5) (s : State) : Out :=
  .next (s.aluImm c (.srai c rd rs1 sh) rd rs1 true (fun a => a.sshiftRight sh.toNat))

/-! ## MDU (R146) -/

/-- The high word of a 64-bit product. -/
def mulHigh (a b : BitVec 64) : Word := field (a * b) 32 32

/-- Signed and unsigned division with the corners of R146: by zero all ones and the dividend; the most negative number by -1
gives itself, remainder 0. -/
def divSigned (a b : Word) : Word := if b = 0 then BitVec.allOnes 32 else a.sdiv b
def divUnsigned (a b : Word) : Word := if b = 0 then BitVec.allOnes 32 else a / b
def remSigned (a b : Word) : Word := if b = 0 then a else a.srem b
def remUnsigned (a b : Word) : Word := if b = 0 then a else a % b

def execMul (c : Cl) (rd rs1 rs2 : RegF) (s : State) : Out := .next (s.alu c (.mul c rd rs1 rs2) rd rs1 rs2 (· * ·))
def execMulh (c : Cl) (rd rs1 rs2 : RegF) (s : State) : Out :=
  .next (s.alu c (.mulh c rd rs1 rs2) rd rs1 rs2 (fun a b => mulHigh (a.signExtend 64) (b.signExtend 64)))
def execMulhu (c : Cl) (rd rs1 rs2 : RegF) (s : State) : Out :=
  .next (s.alu c (.mulhu c rd rs1 rs2) rd rs1 rs2 (fun a b => mulHigh (a.setWidth 64) (b.setWidth 64)))
def execDiv (c : Cl) (rd rs1 rs2 : RegF) (s : State) : Out := .next (s.alu c (.div c rd rs1 rs2) rd rs1 rs2 divSigned)
def execDivu (c : Cl) (rd rs1 rs2 : RegF) (s : State) : Out := .next (s.alu c (.divu c rd rs1 rs2) rd rs1 rs2 divUnsigned)
def execRem (c : Cl) (rd rs1 rs2 : RegF) (s : State) : Out := .next (s.alu c (.rem c rd rs1 rs2) rd rs1 rs2 remSigned)
def execRemu (c : Cl) (rd rs1 rs2 : RegF) (s : State) : Out := .next (s.alu c (.remu c rd rs1 rs2) rd rs1 rs2 remUnsigned)

end Sys2Proof.Machine
end

