-- ==== Sys2Proof/Machine/Dispatch.lean ====
section
/-!
DEFINITION. exec: one arm per command, each a direct call of its meaning.
-/
namespace Sys2Proof.Machine

def exec (i : Instr) (s : State) : Host.Outcome State Fault Refusal :=
  match i with
  | .registerWrite ini addr size data poison hw => Sys2Proof.Machine.execRegisterWrite ini addr size data poison hw s
  | .counterSnapshotRead ini addr wrap => Sys2Proof.Machine.execCounterSnapshotRead ini addr wrap s
  | .tableSync b => Sys2Proof.Machine.execTableSync b s
  | .tableSyncDone b => Sys2Proof.Machine.execTableSyncDone b s
  | .frameBoundary => Sys2Proof.Machine.execFrameBoundary s
  | .frameOpenFill => Sys2Proof.Machine.execFrameOpenFill s
  | .heartbeat => Sys2Proof.Machine.execHeartbeat s
  | .voicePreWake => Sys2Proof.Machine.execVoicePreWake s
  | .frameWarn => Sys2Proof.Machine.execFrameWarn s
  | .clockMonitorWindow count => Sys2Proof.Machine.execClockMonitorWindow count s
  | .pllLockLoss p => Sys2Proof.Machine.execPllLockLoss p s
  | .stwWdog => Sys2Proof.Machine.execStwWdog s
  | .voiceWdog v => Sys2Proof.Machine.execVoiceWdog v s
  | .crescendoArbitration => Sys2Proof.Machine.execCrescendoArbitration s
  | .voiceSleep v => Sys2Proof.Machine.execVoiceSleep v s
  | .blockWake r => Sys2Proof.Machine.execBlockWake r s
  | .summerEntry => Sys2Proof.Machine.execSummerEntry s
  | .drainComplete => Sys2Proof.Machine.execDrainComplete s
  | .ltStep => Sys2Proof.Machine.execLtStep s
  | .ltAdjWrite v slewing => Sys2Proof.Machine.execLtAdjWrite v slewing s
  | .kick => Sys2Proof.Machine.execKick s
  | .wdogKick c => Sys2Proof.Machine.execWdogKick c s
  | .trkEnable t => Sys2Proof.Machine.execTrkEnable t s
  | .uplinkLock t locked => Sys2Proof.Machine.execUplinkLock t locked s
  | .discEnd t count crc viol => Sys2Proof.Machine.execDiscEnd t count crc viol s
  | .discTimeout t => Sys2Proof.Machine.execDiscTimeout t s
  | .trkRelink t => Sys2Proof.Machine.execTrkRelink t s
  | .burstHeader t hdr crc => Sys2Proof.Machine.execBurstHeader t hdr crc s
  | .recordArrival t rec viol => Sys2Proof.Machine.execRecordArrival t rec viol s
  | .burstEnd t crc viol => Sys2Proof.Machine.execBurstEnd t crc viol s
  | .retryPoint t => Sys2Proof.Machine.execRetryPoint t s
  | .cack t conc seq bseqB status crc viol => Sys2Proof.Machine.execCack t conc seq bseqB status crc viol s
  | .commandTransmit t readback => Sys2Proof.Machine.execCommandTransmit t readback s
  | .cmdAckTimeout t conc bcast => Sys2Proof.Machine.execCmdAckTimeout t conc bcast s
  | .trkLinkDown t => Sys2Proof.Machine.execTrkLinkDown t s
  | .trkRelock t => Sys2Proof.Machine.execTrkRelock t s
  | .trkLinkLost t => Sys2Proof.Machine.execTrkLinkLost t s
  | .urgLogPop t ini => Sys2Proof.Machine.execUrgLogPop t ini s
  | .ostinatoRegionStart => Sys2Proof.Machine.execOstinatoRegionStart s
  | .ostinatoRegionDone fails => Sys2Proof.Machine.execOstinatoRegionDone fails s
  | .ostiStall => Sys2Proof.Machine.execOstiStall s
  | .ostinatoAbort => Sys2Proof.Machine.execOstinatoAbort s
  | .memcInjGo => Sys2Proof.Machine.execMemcInjGo s
  | .ceLogPop ini => Sys2Proof.Machine.execCeLogPop ini s
  | .ueLogPop ini => Sys2Proof.Machine.execUeLogPop ini s
  | .unisonMismatch v una unb cores => Sys2Proof.Machine.execUnisonMismatch v una unb cores s
  | .planApply => Sys2Proof.Machine.execPlanApply s
  | .outReq => Sys2Proof.Machine.execOutReq s
  | .rejoin => Sys2Proof.Machine.execRejoin s
  | .stwVote odd => Sys2Proof.Machine.execStwVote odd s
  | .stwResync => Sys2Proof.Machine.execStwResync s
  | .stwResyncTimeout => Sys2Proof.Machine.execStwResyncTimeout s
  | .stwVoter => Sys2Proof.Machine.execStwVoter s
  | .stwDual => Sys2Proof.Machine.execStwDual s
  | .stwLost => Sys2Proof.Machine.execStwLost s
  | .stewardReturn => Sys2Proof.Machine.execStewardReturn s
  | .add c rd rs1 rs2 => Sys2Proof.Machine.execAdd c rd rs1 rs2 s
  | .sub c rd rs1 rs2 => Sys2Proof.Machine.execSub c rd rs1 rs2 s
  | .and c rd rs1 rs2 => Sys2Proof.Machine.execAnd c rd rs1 rs2 s
  | .or c rd rs1 rs2 => Sys2Proof.Machine.execOr c rd rs1 rs2 s
  | .xor c rd rs1 rs2 => Sys2Proof.Machine.execXor c rd rs1 rs2 s
  | .sll c rd rs1 rs2 => Sys2Proof.Machine.execSll c rd rs1 rs2 s
  | .srl c rd rs1 rs2 => Sys2Proof.Machine.execSrl c rd rs1 rs2 s
  | .sra c rd rs1 rs2 => Sys2Proof.Machine.execSra c rd rs1 rs2 s
  | .slt c rd rs1 rs2 => Sys2Proof.Machine.execSlt c rd rs1 rs2 s
  | .sltu c rd rs1 rs2 => Sys2Proof.Machine.execSltu c rd rs1 rs2 s
  | .addi c rd rs1 imm => Sys2Proof.Machine.execAddi c rd rs1 imm s
  | .andi c rd rs1 imm => Sys2Proof.Machine.execAndi c rd rs1 imm s
  | .ori c rd rs1 imm => Sys2Proof.Machine.execOri c rd rs1 imm s
  | .xori c rd rs1 imm => Sys2Proof.Machine.execXori c rd rs1 imm s
  | .slti c rd rs1 imm => Sys2Proof.Machine.execSlti c rd rs1 imm s
  | .lhi c rd rs1 imm => Sys2Proof.Machine.execLhi c rd rs1 imm s
  | .slli c rd rs1 sh => Sys2Proof.Machine.execSlli c rd rs1 sh s
  | .srli c rd rs1 sh => Sys2Proof.Machine.execSrli c rd rs1 sh s
  | .srai c rd rs1 sh => Sys2Proof.Machine.execSrai c rd rs1 sh s
  | .mul c rd rs1 rs2 => Sys2Proof.Machine.execMul c rd rs1 rs2 s
  | .mulh c rd rs1 rs2 => Sys2Proof.Machine.execMulh c rd rs1 rs2 s
  | .mulhu c rd rs1 rs2 => Sys2Proof.Machine.execMulhu c rd rs1 rs2 s
  | .div c rd rs1 rs2 => Sys2Proof.Machine.execDiv c rd rs1 rs2 s
  | .divu c rd rs1 rs2 => Sys2Proof.Machine.execDivu c rd rs1 rs2 s
  | .rem c rd rs1 rs2 => Sys2Proof.Machine.execRem c rd rs1 rs2 s
  | .remu c rd rs1 rs2 => Sys2Proof.Machine.execRemu c rd rs1 rs2 s
  | .lb c rd rs1 imm => Sys2Proof.Machine.execLb c rd rs1 imm s
  | .lh c rd rs1 imm => Sys2Proof.Machine.execLh c rd rs1 imm s
  | .lw c rd rs1 imm => Sys2Proof.Machine.execLw c rd rs1 imm s
  | .lbu c rd rs1 imm => Sys2Proof.Machine.execLbu c rd rs1 imm s
  | .lhu c rd rs1 imm => Sys2Proof.Machine.execLhu c rd rs1 imm s
  | .sb c rs2 rs1 imm => Sys2Proof.Machine.execSb c rs2 rs1 imm s
  | .sh c rs2 rs1 imm => Sys2Proof.Machine.execSh c rs2 rs1 imm s
  | .sw c rs2 rs1 imm => Sys2Proof.Machine.execSw c rs2 rs1 imm s
  | .atswp c rd rs1 rs2 => Sys2Proof.Machine.execAtswp c rd rs1 rs2 s
  | .atadd c rd rs1 rs2 => Sys2Proof.Machine.execAtadd c rd rs1 rs2 s
  | .atand c rd rs1 rs2 => Sys2Proof.Machine.execAtand c rd rs1 rs2 s
  | .ator c rd rs1 rs2 => Sys2Proof.Machine.execAtor c rd rs1 rs2 s
  | .atxor c rd rs1 rs2 => Sys2Proof.Machine.execAtxor c rd rs1 rs2 s
  | .atcas c rd rs1 rs2 => Sys2Proof.Machine.execAtcas c rd rs1 rs2 s
  | .beq c rs1 rs2 off => Sys2Proof.Machine.execBeq c rs1 rs2 off s
  | .bne c rs1 rs2 off => Sys2Proof.Machine.execBne c rs1 rs2 off s
  | .blt c rs1 rs2 off => Sys2Proof.Machine.execBlt c rs1 rs2 off s
  | .bge c rs1 rs2 off => Sys2Proof.Machine.execBge c rs1 rs2 off s
  | .bltu c rs1 rs2 off => Sys2Proof.Machine.execBltu c rs1 rs2 off s
  | .bgeu c rs1 rs2 off => Sys2Proof.Machine.execBgeu c rs1 rs2 off s
  | .call c off => Sys2Proof.Machine.execCall c off s
  | .callr c rd rs1 imm => Sys2Proof.Machine.execCallr c rd rs1 imm s
  | .loop c gs nm1 count => Sys2Proof.Machine.execLoop c gs nm1 count s
  | .srr c rd n => Sys2Proof.Machine.execSrr c rd n s
  | .srw c rs1 n => Sys2Proof.Machine.execSrw c rs1 n s
  | .trap c rs2 => Sys2Proof.Machine.execTrap c rs2 s
  | .reti c => Sys2Proof.Machine.execReti c s
  | .wait c => Sys2Proof.Machine.execWait c s
  | .fence c => Sys2Proof.Machine.execFence c s
  | .iflush c => Sys2Proof.Machine.execIflush c s
  | .fdone c gs => Sys2Proof.Machine.execFdone c gs s
  | .lmov c vd va => Sys2Proof.Machine.execLmov c vd va s
  | .land c vd va vb => Sys2Proof.Machine.execLand c vd va vb s
  | .lor c vd va vb => Sys2Proof.Machine.execLor c vd va vb s
  | .lxor c vd va vb => Sys2Proof.Machine.execLxor c vd va vb s
  | .laddW c vd va vb => Sys2Proof.Machine.execLaddW c vd va vb s
  | .lsubW c vd va vb => Sys2Proof.Machine.execLsubW c vd va vb s
  | .lsplat c vd gs => Sys2Proof.Machine.execLsplat c vd gs s
  | .lins c vd gs lane => Sys2Proof.Machine.execLins c vd gs lane s
  | .lshl c vd va n => Sys2Proof.Machine.execLshl c vd va n s
  | .lshr c vd va n => Sys2Proof.Machine.execLshr c vd va n s
  | .lmacP c vd va vb => Sys2Proof.Machine.execLmacP c vd va vb s
  | .lmacD c vd va vb => Sys2Proof.Machine.execLmacD c vd va vb s
  | .lcrc c gd va => Sys2Proof.Machine.execLcrc c gd va s
  | .judge c gd va vb => Sys2Proof.Machine.execJudge c gd va vb s
  | .lext c gd va pos wm1 sx zero => Sys2Proof.Machine.execLext c gd va pos wm1 sx zero s
  | .lld c vd rs1 imm => Sys2Proof.Machine.execLld c vd rs1 imm s
  | .lst c vs rs1 imm => Sys2Proof.Machine.execLst c vs rs1 imm s
  | .cpush c vd gs => Sys2Proof.Machine.execCpush c vd gs s
  | .egressRelease v => Sys2Proof.Machine.execEgressRelease v s
  | .egressAck v => Sys2Proof.Machine.execEgressAck v s
  | .storeLate c => Sys2Proof.Machine.execStoreLate c s
  | .interruptEntry c inDivide late => Sys2Proof.Machine.execInterruptEntry c inDivide late s
  | .waitWake c => Sys2Proof.Machine.execWaitWake c s
  | .icuSet c hi mask => Sys2Proof.Machine.execIcuSet c hi mask s
  | .cuePost c mask cancel => Sys2Proof.Machine.execCuePost c mask cancel s
  | .cueCancel c mask posts => Sys2Proof.Machine.execCueCancel c mask posts s
  | .cueNext c posts cancel => Sys2Proof.Machine.execCueNext c posts cancel s
  | .arbCfgWrite ini data => Sys2Proof.Machine.execArbCfgWrite ini data s
  | .askShare a line way => Sys2Proof.Machine.execAskShare a line way s
  | .askOwn a line way => Sys2Proof.Machine.execAskOwn a line way s
  | .askUpgrade a line way => Sys2Proof.Machine.execAskUpgrade a line way s
  | .askPeek a line => Sys2Proof.Machine.execAskPeek a line s
  | .askPut a line => Sys2Proof.Machine.execAskPut a line s
  | .retireDirty a line => Sys2Proof.Machine.execRetireDirty a line s
  | .retireClean a line => Sys2Proof.Machine.execRetireClean a line s
  | .sliceModeSwitch x => Sys2Proof.Machine.execSliceModeSwitch x s
  | .probeShare a line => Sys2Proof.Machine.execProbeShare a line s
  | .probeTake a line => Sys2Proof.Machine.execProbeTake a line s
  | .probeKill a line => Sys2Proof.Machine.execProbeKill a line s
  | .probeEvict a line => Sys2Proof.Machine.execProbeEvict a line s
  | .ackGone a line lost => Sys2Proof.Machine.execAckGone a line lost s
  | .ackKept a line => Sys2Proof.Machine.execAckKept a line s
  | .carryDirty a line data poison shared => Sys2Proof.Machine.execCarryDirty a line data poison shared s
  | .carryPut a line data poison mask => Sys2Proof.Machine.execCarryPut a line data poison mask s
  | .carryGrant a line data poison excl nodata => Sys2Proof.Machine.execCarryGrant a line data poison excl nodata s
  | .ackDone a line => Sys2Proof.Machine.execAckDone a line s
  | .ackStale a line => Sys2Proof.Machine.execAckStale a line s
  | .reclaimDone => Sys2Proof.Machine.execReclaimDone s
  | .flush mask => Sys2Proof.Machine.execFlush mask s
  | .flushDone => Sys2Proof.Machine.execFlushDone s
  | .sliceFlush x => Sys2Proof.Machine.execSliceFlush x s
  | .sliceFlushDone x => Sys2Proof.Machine.execSliceFlushDone x s
  | .quiesce x on => Sys2Proof.Machine.execQuiesce x on s
  | .modeReq x m => Sys2Proof.Machine.execModeReq x m s
  | .lostLogPop ini => Sys2Proof.Machine.execLostLogPop ini s
  | .govArm => Sys2Proof.Machine.execGovArm s
  | .govDisarm => Sys2Proof.Machine.execGovDisarm s
  | .govStage => Sys2Proof.Machine.execGovStage s
  | .govConfirm => Sys2Proof.Machine.execGovConfirm s
  | .govClearFermata => Sys2Proof.Machine.execGovClearFermata s
  | .commitOpen => Sys2Proof.Machine.execCommitOpen s
  | .commitClose => Sys2Proof.Machine.execCommitClose s
  | .permitStageExpiry => Sys2Proof.Machine.execPermitStageExpiry s
  | .armInputChange chB high => Sys2Proof.Machine.execArmInputChange chB high s
  | .estopInputChange chB high => Sys2Proof.Machine.execEstopInputChange chB high s
  | .estopDisc => Sys2Proof.Machine.execEstopDisc s
  | .armDisc => Sys2Proof.Machine.execArmDisc s
  | .outputReadback tripA tripB zone => Sys2Proof.Machine.execOutputReadback tripA tripB zone s
  | .faultReport src inst detail => Sys2Proof.Machine.execFaultReport src inst detail s
  | .logClr => Sys2Proof.Machine.execLogClr s
  | .fhInjGo => Sys2Proof.Machine.execFhInjGo s
  | .por => Sys2Proof.Machine.execPor s
  | .bor r => Sys2Proof.Machine.execBor r s
  | .supplyExcursion r => Sys2Proof.Machine.execSupplyExcursion r s
  | .thermal => Sys2Proof.Machine.execThermal s
  | .resetN long => Sys2Proof.Machine.execResetN long s
  | .rstReqGo ini => Sys2Proof.Machine.execRstReqGo ini s
  | .resetAssertion => Sys2Proof.Machine.execResetAssertion s
  | .resetRelease r => Sys2Proof.Machine.execResetRelease r s
  | .optionPhaseEnd o => Sys2Proof.Machine.execOptionPhaseEnd o s
  | .bistSliceEnd r => Sys2Proof.Machine.execBistSliceEnd r s
  | .bootImageCheck src app => Sys2Proof.Machine.execBootImageCheck src app s
  | .bootWatchdog => Sys2Proof.Machine.execBootWatchdog s
  | .ready => Sys2Proof.Machine.execReady s
  | .bistReqGo => Sys2Proof.Machine.execBistReqGo s
  | .itcmSeal mask => Sys2Proof.Machine.execItcmSeal mask s
  | .windowRead addr n => Sys2Proof.Machine.execWindowRead addr n s
  | .windowWrite addr bytes => Sys2Proof.Machine.execWindowWrite addr bytes s
  | .fastStatus n => Sys2Proof.Machine.execFastStatus n s
  | .resetFrame bytes => Sys2Proof.Machine.execResetFrame bytes s
  | .statusWrite word => Sys2Proof.Machine.execStatusWrite word s
  | .doorbell word => Sys2Proof.Machine.execDoorbell word s
  | .eventPop => Sys2Proof.Machine.execEventPop s
  | .evtPush e => Sys2Proof.Machine.execEvtPush e s
  | .hmbxDone => Sys2Proof.Machine.execHmbxDone s
  | .getInfo => Sys2Proof.Machine.execGetInfo s
  | .getBootRecord => Sys2Proof.Machine.execGetBootRecord s
  | .loadConfigChunk => Sys2Proof.Machine.execLoadConfigChunk s
  | .commitConfig plans => Sys2Proof.Machine.execCommitConfig plans s
  | .readConfigDigest => Sys2Proof.Machine.execReadConfigDigest s
  | .arm => Sys2Proof.Machine.execArm s
  | .disarm => Sys2Proof.Machine.execDisarm s
  | .permitStage => Sys2Proof.Machine.execPermitStage s
  | .permitConfirm => Sys2Proof.Machine.execPermitConfirm s
  | .channelCommand => Sys2Proof.Machine.execChannelCommand s
  | .readChannels => Sys2Proof.Machine.execReadChannels s
  | .readSummary => Sys2Proof.Machine.execReadSummary s
  | .readJournal => Sys2Proof.Machine.execReadJournal s
  | .setTimeSlew => Sys2Proof.Machine.execSetTimeSlew s
  | .setTimeStep => Sys2Proof.Machine.execSetTimeStep s
  | .clearFermata => Sys2Proof.Machine.execClearFermata s
  | .runDiagBist => Sys2Proof.Machine.execRunDiagBist s
  | .runDiagVoiceReturn => Sys2Proof.Machine.execRunDiagVoiceReturn s
  | .runDiagFaultInject => Sys2Proof.Machine.execRunDiagFaultInject s
  | .runDiagMemInject => Sys2Proof.Machine.execRunDiagMemInject s
  | .runDiagRelink => Sys2Proof.Machine.execRunDiagRelink s
  | .fwUpdateBegin => Sys2Proof.Machine.execFwUpdateBegin s
  | .fwUpdateData => Sys2Proof.Machine.execFwUpdateData s
  | .fwUpdateEnd flashFail => Sys2Proof.Machine.execFwUpdateEnd flashFail s
  | .loadApp => Sys2Proof.Machine.execLoadApp s
  | .pairStatus => Sys2Proof.Machine.execPairStatus s
  | .resetDevice => Sys2Proof.Machine.execResetDevice s
  | .resetDevicePeer => Sys2Proof.Machine.execResetDevicePeer s
  | .deferredResetRequest => Sys2Proof.Machine.execDeferredResetRequest s
  | .mirlEnable on => Sys2Proof.Machine.execMirlEnable on s
  | .mirlRelink => Sys2Proof.Machine.execMirlRelink s
  | .mirlLinkUp => Sys2Proof.Machine.execMirlLinkUp s
  | .mirlLinkLost => Sys2Proof.Machine.execMirlLinkLost s
  | .mirlRetrain => Sys2Proof.Machine.execMirlRetrain s
  | .mirlRetxTimeout => Sys2Proof.Machine.execMirlRetxTimeout s
  | .mirlAck seq => Sys2Proof.Machine.execMirlAck seq s
  | .mirlNak seq => Sys2Proof.Machine.execMirlNak seq s
  | .state h arg w0 w1 => Sys2Proof.Machine.execState h arg w0 w1 s
  | .hello h w0 w1 w2 w3 => Sys2Proof.Machine.execHello h w0 w1 w2 w3 s
  | .epochPropose h e nonce => Sys2Proof.Machine.execEpochPropose h e nonce s
  | .epochAck h e nonce refuse => Sys2Proof.Machine.execEpochAck h e nonce refuse s
  | .epochGo h e nonce x => Sys2Proof.Machine.execEpochGo h e nonce x s
  | .goAck h e nonce => Sys2Proof.Machine.execGoAck h e nonce s
  | .epochSwitch => Sys2Proof.Machine.execEpochSwitch s
  | .epochDrop h e => Sys2Proof.Machine.execEpochDrop h e s
  | .delta h index poison words => Sys2Proof.Machine.execDelta h index poison words s
  | .deltaAckTimeout => Sys2Proof.Machine.execDeltaAckTimeout s
  | .sweep h sel at_ => Sys2Proof.Machine.execSweep h sel at_ s
  | .journal h entries => Sys2Proof.Machine.execJournal h entries s
  | .syncOpen h kind bytes => Sys2Proof.Machine.execSyncOpen h kind bytes s
  | .syncGrant h => Sys2Proof.Machine.execSyncGrant h s
  | .syncData h index words => Sys2Proof.Machine.execSyncData h index words s
  | .syncEnd h sha => Sys2Proof.Machine.execSyncEnd h sha s
  | .syncRefuse h => Sys2Proof.Machine.execSyncRefuse h s
  | .syncTimeout => Sys2Proof.Machine.execSyncTimeout s
  | .resetNotice h level => Sys2Proof.Machine.execResetNotice h level s
  | .resetReq h level => Sys2Proof.Machine.execResetReq h level s
  | .mirlPacketTransmit => Sys2Proof.Machine.execMirlPacketTransmit s
  | .mirlCrcError => Sys2Proof.Machine.execMirlCrcError s
  | .supplyInWindow r => Sys2Proof.Machine.execSupplyInWindow r s
  | .junctionTemperatureRecovered => Sys2Proof.Machine.execJunctionTemperatureRecovered s
  | .pllRelock p => Sys2Proof.Machine.execPllRelock p s
  | .blockOff r => Sys2Proof.Machine.execBlockOff r s

end Sys2Proof.Machine
end

