-- ==== Sys2Proof/Machine/Step.lean ====
section
/-!
DEFINITION. step: the command at the front of the queue, on the state with the queue's rest; on an empty queue one tick of the
24 MHz reference passes (log 1).
-/
namespace Sys2Proof.Machine

/-- The state with a command put at the front of its queue. -/
def State.push (s : State) (c : Instr) : State := { s with pending := c :: s.pending }

/-- One step. -/
def step (s : State) : Host.Outcome State Fault Refusal :=
  match s.pending with
  | [] => .next (Sys2Proof.Machine.idleTick s)
  | c :: rest => Sys2Proof.Machine.exec c { s with pending := rest }

/-- The command the word spells at the front of the queue; no row of the table has bits, so no word spells one (log 2). -/
def State.withFetchWord (s : State) (nbits w : Nat) : State :=
  match Sys2Proof.decodeTableWord nbits w with
  | some c => s.push c
  | none => s

end Sys2Proof.Machine
end

