-- ==== Sys2Proof/Safety.lean ====
section
/-!
DEFINITION. Safe states and ready states, in the terms the statements use: the invariants that every step keeps, when a core
can issue an instruction, and what an instruction that issues leaves.
-/
namespace Sys2Proof.Machine

/-! ## Invariants -/

/-- g0 of every core holds zero without a tag (R128). -/
def State.g0Zero (s : State) : Prop := ∀ c : Cl, s.core[c].g[0] = 0 ∧ s.core[c].gTag.getLsbD 0 = false

/-- Every memory keeps its canonical form. -/
def State.memoryOk (s : State) : Prop := s.memWf = true

/-- The queues that the spec bounds stay within their bounds: the pop logs of MEMC (8 entries, R102) and of CHORD (16, Table 08-8), the
egress hold (4 positions, R163), the fault log (64 entries, R228), the mailbox event FIFO (64 entries, R316), the journal (4,096
entries, R312), the packets that await acknowledgement (16, R321). -/
def State.queuesOk (s : State) : Prop :=
  s.memc.ceLog.entries.length ≤ 8 ∧ s.memc.ueLog.entries.length ≤ 8 ∧ s.chord.lostLog.entries.length ≤ 16 ∧
    (∀ c : Cl, s.core[c].egress.length ≤ 4) ∧ s.hub.order.length ≤ 64 ∧ s.hmbx.fifo.length ≤ 64 ∧
    s.drunor.journal.length ≤ 4096 ∧ s.mirl.unacked.length ≤ 16

/-- Every slice's Vector Directory names a line at most once (R189). -/
def State.directoryOk (s : State) : Prop := ∀ i : SliceId, (s.chord.slice[i].vd.map (fun e => e.line)).Nodup

/-! ## Issue -/

/-- The fetch at PC delivers an instruction: the loop buffer holds the body (R143), or PC lies in a memory the cluster executes
from and the word there reads without poison (R142, R95). -/
def State.fetches (s : State) (c : Cl) : Bool :=
  (s.core[c].inLoop && s.core[c].loopBuf) ||
    (match regionOf c s.core[c].pc.toNat with
      | .mem m off => mayExecute c m && accepts m off .b4 && !(s.peekBytes m off 4).2
      | _ => false)

/-- The state after that fetch: a corrected error of the word is counted and logged (R91, R102), nothing else changes. -/
def State.fetched (s : State) (c : Cl) : State :=
  if s.core[c].inLoop && s.core[c].loopBuf then s
  else match regionOf c s.core[c].pc.toNat with
    | .mem m off => s.noteBytes m off 4 (initOf c)
    | _ => s

/-- The core can issue the instruction at PC. -/
def State.canIssue (s : State) (c : Cl) : Bool := s.runnable c && s.fetches c

/-- The state after an instruction that only writes scalar register `rd` (R129), at the next PC (R143). -/
def State.wroteG (s : State) (c : Cl) (rd : RegF) (v : Word) (tag : Bool) : State :=
  (s.fetched c).onCore c (fun k => (k.writeG rd v tag).next c)

/-- The state after an instruction that only writes lane register `vd`, read by instructions that issue `lat` later (R136). -/
def State.wroteV (s : State) (c : Cl) (vd : RegF) (v : Native) (tag : Bool) (lat : Nat) : State :=
  (s.fetched c).onCore c (fun k => (k.writeV vd v tag lat).next c)

/-- The state with `n` more free values used up (log 5): nothing a command can see changes. -/
def State.used (s : State) (n : Nat) : State := { s with free := s.free + n }

/-- No judging deadline comes by an instant (R23): time passes up to it with nothing but counts of time. -/
def State.noDeadline (s : State) (t : Time) : Prop := ∀ j, s.metr.judged = some j → t < j.deadline

/-- No cached copy of a line and no message on its way: a read of Chord by a unit that caches nothing meets the arrays alone. -/
def State.noCopies (s : State) : Prop := (∀ c : Cl, s.chord.l1d[c] = []) ∧ s.chord.net = []

/-! ## Frames -/

/-- The parts of the state, one for each field of State. -/
inductive Part where
  | pending | mem | memc | osti | hdr | snaps | arbCfg | chord | core | unis | trk | gov | hub | metr | cres | aon | rst | hmbx
  | drunor | mirl | ans | free
deriving DecidableEq, Repr

/-- Two states agree on a part. -/
def Part.same (s t : State) : Part → Prop
  | .pending => t.pending = s.pending
  | .mem => t.mem = s.mem
  | .memc => t.memc = s.memc
  | .osti => t.osti = s.osti
  | .hdr => t.hdr = s.hdr
  | .snaps => t.snaps = s.snaps
  | .arbCfg => t.arbCfg = s.arbCfg
  | .chord => t.chord = s.chord
  | .core => t.core = s.core
  | .unis => t.unis = s.unis
  | .trk => t.trk = s.trk
  | .gov => t.gov = s.gov
  | .hub => t.hub = s.hub
  | .metr => t.metr = s.metr
  | .cres => t.cres = s.cres
  | .aon => t.aon = s.aon
  | .rst => t.rst = s.rst
  | .hmbx => t.hmbx = s.hmbx
  | .drunor => t.drunor = s.drunor
  | .mirl => t.mirl = s.mirl
  | .ans => t.ans = s.ans
  | .free => t.free = s.free

/-- Going from `s` to `t` changes nothing outside the parts `ps`. -/
def State.changesOnly (s : State) (ps : List Part) (t : State) : Prop := ∀ p : Part, p ∉ ps → p.same s t

end Sys2Proof.Machine
end

