-- ==== Sys2Proof/WellFormed.lean ====
section
/-!
DEFINITION. Well-formed commands: what the spec fixes about a command's operands beyond their types. exec gives every command a
meaning, well-formed or not; these checks say which terms stand for something the device's environment can send.
-/
namespace Sys2Proof

/-- Payload of a Mirror Link packet: COUNT is 0 to 64 words (Table 13-1). -/
def payloadOk (n : Nat) : Bool := decide (n ≤ 64)

/-- A line of the Chord window (Table 04-1). -/
def chordLine (l : Line) : Bool := decide (0x400000 ≤ l.toNat) && decide (l.toNat < 0x420000)

/-- A v field of an instruction word (R131). -/
def vField (r : RegF) : Bool := !r.getLsbD 4

/-- What step 2 and step 3 of the option phase sample (Table 11-6): 16 strap samples in a try and up to three retries (R272), and 8
conversions. -/
def OptionReading.ok (o : OptionReading) : Bool :=
  decide (0 < o.straps.length) && decide (o.straps.length ≤ 4) && o.straps.all (fun xs => xs.length == 16) && o.optr.length == 8

/-- The first byte after HCS_N falls is not that of a window or fast-status transfer (Table 12-1), which have rows of their own. -/
def frameByte (b : Byte) : Bool := b != 0x0B && b != 0x02 && b != 0x05

/-- The checks, by kind of operand. -/
def Instr.wellFormed : Instr → Bool
  -- coherence messages name lines of the window
  | .askShare _ l _ | .askOwn _ l _ | .askUpgrade _ l _ | .askPeek _ l | .askPut _ l | .retireDirty _ l | .retireClean _ l
  | .probeShare _ l | .probeTake _ l | .probeKill _ l | .probeEvict _ l | .ackGone _ l _ | .ackKept _ l
  | .carryDirty _ l _ _ _ | .carryPut _ l _ _ _ | .carryGrant _ l _ _ _ _ | .ackDone _ l | .ackStale _ l => chordLine l
  -- Mirror Link payloads
  | .delta _ i _ ws => payloadOk ws.length && decide (i.toNat + ws.length ≤ 32768)
  | .journal _ es => payloadOk es.length
  | .syncData _ _ ws => payloadOk ws.length
  -- instruction words that the encoding admits
  | .lhi _ _ rs1 _ => rs1 == 0
  | .loop _ _ nm1 _ => decide (nm1.toNat < 16)
  | .lmov _ vd va | .lshl _ vd va _ | .lshr _ vd va _ => vField vd && vField va
  | .land _ vd va vb | .lor _ vd va vb | .lxor _ vd va vb | .laddW _ vd va vb | .lsubW _ vd va vb | .lmacP _ vd va vb
  | .lmacD _ vd va vb => vField vd && vField va && vField vb
  | .lsplat _ vd _ | .lins _ vd _ _ | .lld _ vd _ _ | .lst _ vd _ _ | .cpush _ vd _ => vField vd
  | .lcrc _ _ va => vField va
  | .judge _ _ va vb => vField va && vField vb
  | .lext _ _ va _ _ _ z => vField va && z == 0
  -- the option phase and the reset frame
  | .optionPhaseEnd o => o.ok
  | .resetFrame bs => bs.head?.any frameByte
  | .evtPush (.entries es) => decide (0 < es.length)
  | _ => true

end Sys2Proof
end

