-- ==== Sys2Proof/Certificates/Slice0/Obligations.lean ====
section
/-!
DEFINITION. The statements for the provers, family by family in the order of the table: what a command answers, what it leaves
alone, and the invariants that every step keeps. A statement that rests on a choice of the model says so and names the log entry.
-/
open Sys2Proof Sys2Proof.Machine

/-! ## The queue -/

/-- The step takes the command at the front of the queue and answers exec of it on the state with the queue's rest. -/
def Obligations.StepRunsTheFrontCommand : Prop :=
  ∀ (i : Instr) (rest : List Instr) (s : State),
    step { s with pending := i :: rest } = exec i { s with pending := rest }

/-- The model's choice (log 1): on an empty queue one tick of LINE_TIME passes. Nothing but counts of time changes, unless the tick
reaches the deadline of the frame being judged: then that frame is no longer judged (R23), and still no memory, no trunk, no grant and
no register but the reports, the riding count and the REHOME bits of an L2 changes. -/
def Obligations.EmptyQueuePassesOneTick : Prop :=
  ∀ s : State, s.pending = [] → ∃ t, step s = .next t ∧ t.metr.lineTime = s.metr.lineTime + 1 ∧ t.pending = [] ∧
    t.mem = s.mem ∧ t.chord = s.chord ∧ t.trk = s.trk ∧ t.cres = s.cres ∧ t.rst = s.rst ∧ t.hmbx = s.hmbx ∧
    t.drunor = s.drunor ∧ t.mirl = s.mirl ∧
    (s.noDeadline (s.metr.lineTime + 1) → t.gov = s.gov ∧ t.hub = s.hub ∧ t.unis = s.unis ∧ t.hdr = s.hdr ∧
      t.metr.judged = s.metr.judged) ∧
    ((∃ j, s.metr.judged = some j ∧ j.deadline ≤ s.metr.lineTime + 1) → t.metr.judged = none) ∧
    ∀ c : Cl, t.core[c].g = s.core[c].g ∧ t.core[c].pc = s.core[c].pc ∧ t.core[c].v = s.core[c].v

/-- No command stops the device: exec answers a next state for every command in every state, and leaves the queue alone. -/
def Obligations.EveryCommandAnswersAndLeavesTheQueue : Prop :=
  ∀ (i : Instr) (s : State), ∃ t, exec i s = .next t ∧ t.pending = s.pending

/-! ## Scalar arithmetic (06) -/

/-- The ALU register instructions write RD with the operation of RS1 and RS2, tagged when an operand is (R129), and change
nothing else (R131, Table 06-3).
A shift by a register amount below 32 shifts by it; by 32 or more it completes with a value the spec leaves open, and
writes nothing but RD and its tag (log 39).
The immediate forms, with a signed 16-bit immediate (Table 06-2); LHI places its immediate in the upper half; shifts take
their amount from the word.
Completes: add, sub, and, or, xor, sll, srl, sra, slt, sltu, addi, andi, ori, xori, slti, slli, srli, srai, lhi. -/
def Obligations.AluResults : Prop :=
  (∀ (c : Cl) (rd rs1 rs2 : RegF) (s : State), s.canIssue c = true →
      let a := s.core[c].readG rs1
      let b := s.core[c].readG rs2
      let gives (v : Word) : Host.Outcome State Fault Refusal := .next (s.wroteG c rd v (a.2 || b.2))
      exec (.add c rd rs1 rs2) s = gives (a.1 + b.1) ∧
      exec (.sub c rd rs1 rs2) s = gives (a.1 - b.1) ∧
      exec (.and c rd rs1 rs2) s = gives (a.1 &&& b.1) ∧
      exec (.or c rd rs1 rs2) s = gives (a.1 ||| b.1) ∧
      exec (.xor c rd rs1 rs2) s = gives (a.1 ^^^ b.1) ∧
      exec (.slt c rd rs1 rs2) s = gives (if a.1.toInt < b.1.toInt then 1 else 0) ∧
      exec (.sltu c rd rs1 rs2) s = gives (if a.1.toNat < b.1.toNat then 1 else 0)) ∧
  ((∀ (c : Cl) (rd rs1 rs2 : RegF) (s : State), s.canIssue c = true →
        let a := s.core[c].readG rs1
        let b := s.core[c].readG rs2
        (b.1.toNat < 32 →
          exec (.sll c rd rs1 rs2) s = .next (s.wroteG c rd (a.1 <<< b.1.toNat) (a.2 || b.2)) ∧
          exec (.srl c rd rs1 rs2) s = .next (s.wroteG c rd (a.1 >>> b.1.toNat) (a.2 || b.2)) ∧
          exec (.sra c rd rs1 rs2) s = .next (s.wroteG c rd (a.1.sshiftRight b.1.toNat) (a.2 || b.2))) ∧
        (32 ≤ b.1.toNat →
          ∀ i ∈ [Instr.sll c rd rs1 rs2, .srl c rd rs1 rs2, .sra c rd rs1 rs2],
            ∃ v, exec i s = .next ((s.wroteG c rd v (a.2 || b.2)).used 1))) ∧
    (∀ (c : Cl) (rd rs1 : RegF) (imm : BitVec 16) (sh : BitVec 5) (s : State), s.canIssue c = true →
        let a := s.core[c].readG rs1
        let gives (v : Word) : Host.Outcome State Fault Refusal := .next (s.wroteG c rd v a.2)
        let i32 : Word := imm.signExtend 32
        exec (.addi c rd rs1 imm) s = gives (a.1 + i32) ∧
        exec (.andi c rd rs1 imm) s = gives (a.1 &&& i32) ∧
        exec (.ori c rd rs1 imm) s = gives (a.1 ||| i32) ∧
        exec (.xori c rd rs1 imm) s = gives (a.1 ^^^ i32) ∧
        exec (.slti c rd rs1 imm) s = gives (if a.1.toInt < i32.toInt then 1 else 0) ∧
        exec (.slli c rd rs1 sh) s = gives (a.1 <<< sh.toNat) ∧
        exec (.srli c rd rs1 sh) s = gives (a.1 >>> sh.toNat) ∧
        exec (.srai c rd rs1 sh) s = gives (a.1.sshiftRight sh.toNat) ∧
        exec (.lhi c rd 0 imm) s = .next (s.wroteG c rd (imm ++ (0 : BitVec 16)) false)))

/-- The MDU results with the corners of R146: division by zero gives all ones and the dividend; the most negative number by -1
gives itself with remainder 0.
Completes: mul, mulh, mulhu, div, divu, rem, remu. -/
def Obligations.MduResults : Prop :=
  ∀ (c : Cl) (rd rs1 rs2 : RegF) (s : State), s.canIssue c = true →
    let a := s.core[c].readG rs1
    let b := s.core[c].readG rs2
    let gives (v : Word) : Host.Outcome State Fault Refusal := .next (s.wroteG c rd v (a.2 || b.2))
    exec (.mul c rd rs1 rs2) s = gives (BitVec.ofInt 32 (a.1.toInt * b.1.toInt)) ∧
    exec (.mulh c rd rs1 rs2) s = gives (BitVec.ofInt 32 (a.1.toInt * b.1.toInt / 2 ^ 32)) ∧
    exec (.mulhu c rd rs1 rs2) s = gives (BitVec.ofNat 32 (a.1.toNat * b.1.toNat / 2 ^ 32)) ∧
    exec (.div c rd rs1 rs2) s = gives (if b.1 = 0 then BitVec.allOnes 32
      else if a.1 = 0x80000000 ∧ b.1 = BitVec.allOnes 32 then 0x80000000 else BitVec.ofInt 32 (a.1.toInt.tdiv b.1.toInt)) ∧
    exec (.divu c rd rs1 rs2) s = gives (if b.1 = 0 then BitVec.allOnes 32 else BitVec.ofNat 32 (a.1.toNat / b.1.toNat)) ∧
    exec (.rem c rd rs1 rs2) s = gives (if b.1 = 0 then a.1
      else if a.1 = 0x80000000 ∧ b.1 = BitVec.allOnes 32 then 0 else BitVec.ofInt 32 (a.1.toInt.tmod b.1.toInt)) ∧
    exec (.remu c rd rs1 rs2) s = gives (if b.1 = 0 then a.1 else BitVec.ofNat 32 (a.1.toNat % b.1.toNat))

/-- What writing a scalar register leaves: RD reads back value and tag unless it is g0, which stays zero without a tag; every
other register, every other core and all of memory are unchanged, and v registers change only by lane results that land. -/
def Obligations.ScalarWriteFrame : Prop :=
  ∀ (c : Cl) (rd : RegF) (v : Word) (tag : Bool) (s : State), let t := s.wroteG c rd v tag
    t.core[c].readG rd = (if rd = 0 then (0, false) else (v, tag)) ∧
    (∀ r : RegF, r ≠ rd → t.core[c].readG r = s.core[c].readG r) ∧
    t.core[c].v = s.core[c].ageLane.v ∧ t.core[c].vTag = s.core[c].ageLane.vTag ∧
    (∀ d : Cl, d ≠ c → t.core[d] = s.core[d]) ∧
    (∀ m off, t.byteAt m off = s.byteAt m off) ∧
    (let k := t.core[c]; let k0 := s.core[c]
      k.curLvl = k0.curLvl ∧ k.ie = k0.ie ∧ k.maskLvl = k0.maskLvl ∧ k.epc = k0.epc ∧ k.ecause = k0.ecause ∧
      k.eaddr = k0.eaddr ∧ k.vtable = k0.vtable ∧ k.loopStart = k0.loopStart ∧ k.loopEnd = k0.loopEnd ∧
      k.icuEn = k0.icuEn ∧ k.icuPend = k0.icuPend ∧ k.icuLvl = k0.icuLvl ∧ k.cueReady = k0.cueReady ∧
      k.cueSlot = k0.cueSlot ∧ k.egress = k0.egress ∧ k.poisonJudged = k0.poisonJudged ∧ k.divAbandon = k0.divAbandon) ∧
    t.gov = s.gov ∧ t.unis = s.unis ∧ t.trk = s.trk ∧ t.chord = s.chord ∧ t.metr = s.metr ∧ t.cres = s.cres

/-! ## The lane (06) -/

/-- The lane instructions whose result goes to a v register: the result is readable L instructions later (R136), tagged when an
operand is (R129); LINS, LMAC.P and LMAC.D also read VD. Operands are read as log 6 says; each read uses up one free value.
LCRC answers 0 for a record whose CRC-16 is right and 0x1_0000 plus the computed CRC otherwise; LEXT extracts a field of 1
to 32 bits, zero- or sign-extended, and completes with an open value where the field passes bit 127 (log 40).
Completes: lmov, land, lor, lxor, laddW, lsubW, lsplat, lins, lext, lshl, lshr, lmacD, lmacP, lcrc. -/
def Obligations.LaneResults : Prop :=
  (∀ (c : Cl) (vd va vb gs : RegF) (lane : BitVec 2) (n : BitVec 4) (s : State), s.canIssue c = true →
      vok vd = true → vok va = true → vok vb = true →
      let a := s.readV c va
      let b := s.fresh.readV c vb
      let d := s.fresh.fresh.readV c vd
      let g := s.core[c].readG gs
      let gives (reads : Nat) (v : Native) (tag : Bool) (lat : Nat) : Host.Outcome State Fault Refusal :=
        .next ((s.wroteV c vd v tag lat).used reads)
      let lanes (f : Nat → Word) : Native := f 3 ++ f 2 ++ f 1 ++ f 0
      exec (.lmov c vd va) s = gives 1 a.1 a.2 1 ∧
      exec (.land c vd va vb) s = gives 2 (a.1 &&& b.1) (a.2 || b.2) 1 ∧
      exec (.lor c vd va vb) s = gives 2 (a.1 ||| b.1) (a.2 || b.2) 1 ∧
      exec (.lxor c vd va vb) s = gives 2 (a.1 ^^^ b.1) (a.2 || b.2) 1 ∧
      exec (.laddW c vd va vb) s = gives 2 (lanes (fun k => lane32 a.1 k + lane32 b.1 k)) (a.2 || b.2) 1 ∧
      exec (.lsubW c vd va vb) s = gives 2 (lanes (fun k => lane32 a.1 k - lane32 b.1 k)) (a.2 || b.2) 1 ∧
      exec (.lsplat c vd gs) s = gives 0 (lanes (fun _ => g.1)) g.2 1 ∧
      exec (.lins c vd gs lane) s = (let d := s.readV c vd
        gives 1 (lanes (fun k => if k = lane.toNat then g.1 else lane32 d.1 k)) (g.2 || d.2) 1) ∧
      exec (.lshl c vd va n) s = gives 1 (a.1 <<< (8 * n.toNat)) a.2 1 ∧
      exec (.lshr c vd va n) s = gives 1 (a.1 >>> (8 * n.toNat)) a.2 1 ∧
      exec (.lmacP c vd va vb) s =
        gives 3 (lanes (fun k => lane32 d.1 k + lane32 a.1 k * lane32 b.1 k)) (a.2 || b.2 || d.2) 3 ∧
      exec (.lmacD c vd va vb) s = gives 3 (field d.1 64 64 ++ (field d.1 0 64 + dotLanes a.1 b.1)) (a.2 || b.2 || d.2) 4) ∧
  (∀ (c : Cl) (gd va : RegF) (pos : BitVec 7) (wm1 : BitVec 5) (sx : Bool) (s : State), s.canIssue c = true → vok va = true →
      let a := s.readV c va
      exec (.lcrc c gd va) s = .next ((s.wroteG c gd
        (if crc16Word a.1 = field a.1 112 16 then 0 else 0x10000 + (crc16Word a.1).setWidth 32) a.2).used 1) ∧
      (pos.toNat + wm1.toNat < 128 → ∃ v, exec (.lext c gd va pos wm1 sx 0) s =
          .next ((s.wroteG c gd v a.2).used 2) ∧
        ∀ i, i < 32 → v.getLsbD i =
          (if i ≤ wm1.toNat then a.1.getLsbD (pos.toNat + i) else sx && a.1.getLsbD (pos.toNat + wm1.toNat))) ∧
      (128 ≤ pos.toNat + wm1.toNat → ∃ v, exec (.lext c gd va pos wm1 sx 0) s =
          .next ((s.wroteG c gd v a.2).used 2)))

/-- JUDGE (R140): a tagged operand gives 0xFFFF with its tag clear and counts POISON_JUDGED; every other verdict is the 16-bit
code of Table 06-7 with bit 15 set exactly when one of bits 11 to 0 is, and is never tagged.
The trip causes of Table 06-7 one by one: limits of voltage, current and temperature, a wrong CRC-16, the record's own
flags, and a mode that is none of the defined ones.
Completes: judge. -/
def Obligations.JudgeResults : Prop :=
  (∀ (c : Cl) (gd va vb : RegF) (s : State), s.canIssue c = true → vok va = true → vok vb = true →
      let a := s.readV c va
      let b := s.fresh.readV c vb
      ((a.2 || b.2) = true → ∃ t, exec (.judge c gd va vb) s = .next t ∧
        t.core[c] = (({ s.core[c].writeG gd 0xFFFF false with poisonJudged := s.core[c].poisonJudged + 1 } : Core).next c) ∧
        t.mem = s.mem ∧ ∀ d : Cl, d ≠ c → t.core[d] = s.core[d]) ∧
      ((a.2 || b.2) = false → ∃ v : BitVec 16,
        exec (.judge c gd va vb) s = .next ((s.wroteG c gd (v.setWidth 32) false).used 2) ∧
        field v 0 12 = verdictCauses a.1 b.1 ∧ v.getLsbD 12 = a.1.getLsbD 59 ∧ v.getLsbD 13 = false ∧ v.getLsbD 14 = false ∧
        v.getLsbD 15 = (field v 0 12 != (0 : BitVec 12)))) ∧
  (∀ r lim : Native, let b := verdictCauses r lim
      b.getLsbD 0 = decide ((field lim 0 20 : BitVec 20).toNat < (field r 0 20 : BitVec 20).toNat) ∧
      b.getLsbD 1 = (decide ((field r 0 20 : BitVec 20).toNat < (field lim 20 20 : BitVec 20).toNat) &&
        (!lim.getLsbD 116 || r.getLsbD 59)) ∧
      b.getLsbD 2 = decide ((field lim 40 24 : BitVec 24).toInt < (field r 20 24 : BitVec 24).toInt) ∧
      b.getLsbD 3 = decide ((field r 20 24 : BitVec 24).toInt < (field lim 64 24 : BitVec 24).toInt) ∧
      b.getLsbD 4 = decide ((field lim 88 12 : BitVec 12).toInt < (field r 44 12 : BitVec 12).toInt) ∧
      b.getLsbD 5 = decide ((field r 44 12 : BitVec 12).toInt < (field lim 100 12 : BitVec 12).toInt) ∧
      b.getLsbD 6 = (crc16Word r != field r 112 16) ∧
      b.getLsbD 7 = r.getLsbD 63 ∧ b.getLsbD 8 = r.getLsbD 62 ∧ b.getLsbD 9 = r.getLsbD 60 ∧ b.getLsbD 10 = r.getLsbD 61 ∧
      b.getLsbD 11 = decide (6 ≤ (field r 56 3 : BitVec 3).toNat))

/-! ## Control flow (06) -/

/-- A branch with untagged operands goes to its own address plus four times its offset when its condition holds, else to the
next instruction; in a loop its target must lie outside the body (R144).
Completes: beq, bne, blt, bge, bltu, bgeu. -/
def Obligations.BranchResults : Prop :=
  ∀ (c : Cl) (rs1 rs2 : RegF) (off : BitVec 16) (s : State), s.canIssue c = true →
    (s.core[c].readG rs1).2 = false → (s.core[c].readG rs2).2 = false →
    let target := s.core[c].pc + (off.signExtend 32 <<< 2)
    s.core[c].inLoop = false ∨ inBody c s.core[c] target = false →
    let a := (s.core[c].readG rs1).1
    let b := (s.core[c].readG rs2).1
    let goes (p : Prop) [Decidable p] : Host.Outcome State Fault Refusal :=
      .next ((s.fetched c).onCore c (fun k => if p then k.jump target else k.next c))
    exec (.beq c rs1 rs2 off) s = goes (a = b) ∧
    exec (.bne c rs1 rs2 off) s = goes (a ≠ b) ∧
    exec (.blt c rs1 rs2 off) s = goes (a.toInt < b.toInt) ∧
    exec (.bge c rs1 rs2 off) s = goes (b.toInt ≤ a.toInt) ∧
    exec (.bltu c rs1 rs2 off) s = goes (a.toNat < b.toNat) ∧
    exec (.bgeu c rs1 rs2 off) s = goes (b.toNat ≤ a.toNat)

/-- CALL and CALLR, outside a loop: the return address goes to g1 or RD, and PC to the target; CALLR reads its base before it
writes RD. LOOP in its place (R143): its body starts at the next instruction, a count of zero skips it.
A taken branch, a call and the fall-through change PC, the loop state and lane results that land, and no register but the
return address.
Completes: call, callr, loop. -/
def Obligations.CallAndLoopResults : Prop :=
  (∀ (c : Cl) (rd rs1 gs nm1 : RegF) (off : BitVec 26) (imm count : BitVec 16) (s : State), s.canIssue c = true →
      s.core[c].inLoop = false →
      let pc := s.core[c].pc
      exec (.call c off) s = .next ((s.fetched c).onCore c (fun k =>
        (k.writeG 1 (pc + 4) false).jump (pc + (off.signExtend 32 <<< 2)))) ∧
      ((s.core[c].readG rs1).2 = false → exec (.callr c rd rs1 imm) s = .next ((s.fetched c).onCore c (fun k =>
        (k.writeG rd (pc + 4) false).jump ((s.core[c].readG rs1).1 + imm.signExtend 32)))) ∧
      (∀ idx, itcmIndex c pc = some idx → pc.toNat % 16 = 12 → nm1.toNat < 16 → (s.core[c].readG gs).2 = false →
        let n : Word := if gs = 0 then count.setWidth 32 else (s.core[c].readG gs).1
        ∃ t, exec (.loop c gs nm1 count) s = .next t ∧ t.mem = s.mem ∧ t.core[c].g = s.core[c].g ∧
          t.core[c].gTag = s.core[c].gTag ∧
          (n = 0 → t.core[c].pc = pc + 4 * (nm1.setWidth 32 + 2) ∧ t.core[c].inLoop = false) ∧
          (n ≠ 0 → t.core[c].inLoop = true ∧ t.core[c].loopStart = idx + 1 ∧ t.core[c].loopEnd = idx + 1 + nm1.setWidth 16 ∧
            t.core[c].loopCount = n - 1 ∧ t.core[c].pc = pc + 4))) ∧
  (∀ (k : Core) (c : Cl) (target : Word),
      (k.jump target).pc = target ∧ (k.jump target).inLoop = false ∧ (k.jump target).loopBuf = false ∧
      (k.jump target).g = k.g ∧ (k.jump target).gTag = k.gTag ∧ (k.jump target).loopCount = k.loopCount ∧
      (k.next c).g = k.g ∧ (k.next c).gTag = k.gTag ∧ (k.next c).v = (k.jump target).v ∧
      (k.inLoop = false → (k.next c).pc = k.pc + 4 ∧ (k.next c).loopCount = k.loopCount) ∧
      (k.inLoop = true → itcmIndex c k.pc = some k.loopEnd → k.loopCount = 0 →
        (k.next c).pc = k.pc + 4 ∧ (k.next c).inLoop = false) ∧
      (k.inLoop = true → itcmIndex c k.pc = some k.loopEnd → k.loopCount ≠ 0 →
        (k.next c).pc = k.pc - 4 * (k.loopEnd - k.loopStart).setWidth 32 ∧ (k.next c).loopCount = k.loopCount - 1 ∧
          (k.next c).inLoop = true))

/-! ## Loads and stores (06, 04) -/

/-- Loads from a memory other than Chord that is awake (R87), readable to the cluster, with nothing in the egress hold touching
the bytes (R133): RD or VD gets the bytes, extended as Table 06-3 says, tagged when a word read is poisoned (R129); the reads are
counted (R91) and nothing else changes.
Completes: lb, lbu, lh, lhu, lw, lld. -/
def Obligations.LoadResults : Prop :=
  ∀ (c : Cl) (rd rs1 vd : RegF) (imm : BitVec 16) (m : MemName) (off : Nat) (s : State), s.canIssue c = true →
    (s.core[c].readG rs1).2 = false → m ≠ .chord → readable c m = true →
    let a := (s.core[c].readG rs1).1 + imm.signExtend 32
    regionOf c a.toNat = .mem m off →
    let free (sz : Size) : Prop :=
      accepts m off sz = true ∧ s.asleep m off (sizeBytes sz) = [] ∧ s.heldLoad c m off (sizeBytes sz) = .nothing
    let v (sz : Size) := s.peekBytes m off (sizeBytes sz)
    let gives (sz : Size) (w : Word) : Host.Outcome State Fault Refusal :=
      .next (((s.fetched c).noteBytes m off (sizeBytes sz) (initOf c)).onCore c (fun k => (k.writeG rd w (v sz).2).next c))
    (free .b1 → exec (.lb c rd rs1 imm) s = gives .b1 ((field (v .b1).1 0 8 : Byte).signExtend 32) ∧
      exec (.lbu c rd rs1 imm) s = gives .b1 ((field (v .b1).1 0 8 : Byte).setWidth 32)) ∧
    (free .b2 → exec (.lh c rd rs1 imm) s = gives .b2 ((field (v .b2).1 0 16 : BitVec 16).signExtend 32) ∧
      exec (.lhu c rd rs1 imm) s = gives .b2 ((field (v .b2).1 0 16 : BitVec 16).setWidth 32)) ∧
    (free .b4 → exec (.lw c rd rs1 imm) s = gives .b4 (field (v .b4).1 0 32)) ∧
    (free .b16 → vok vd = true → a.toNat % 16 = 0 → exec (.lld c vd rs1 imm) s =
      .next (((s.fetched c).noteBytes m off 16 (initOf c)).onCore c (fun k =>
        (k.writeV vd (v .b16).1 (v .b16).2 (lldLatency c (.mem m off))).next c)))

/-- Loads and atomics of lines of Chord that the L1D holds perform there at once (Table 08-2, R194): a load hits in S, E, M and
SM_D, an atomic in E and M; a load that crosses into a second line takes its bytes from both; the atomic returns the old word and
leaves the line in M with the new one (R148).
ATCAS with another value than RD's returns the old value and stores nothing (R148): the line moves to M with its data (Table 08-2).
Completes: atswp, atadd, atand, ator, atxor, atcas. -/
def Obligations.ChordHits : Prop :=
  (∀ (c : Cl) (rd rs1 vd : RegF) (imm : BitVec 16) (off : Nat) (s : State), s.canIssue c = true →
      (s.core[c].readG rs1).2 = false → s.agentDead c = false →
      let a := ((s.core[c].readG rs1).1 + imm.signExtend 32).toNat
      regionOf c a = .mem .chord off →
      let room := 64 - a % 64
      let value (n : Nat) : Native × Bool :=
        if n ≤ room then (s.l1Bytes c a n).2
        else ((s.l1Bytes c a room).2.1 ||| ((s.l1Bytes c (a + room) (n - room)).2.1 <<< (8 * room)),
          (s.l1Bytes c a room).2.2 || (s.l1Bytes c (a + room) (n - room)).2.2)
      let hits (i : Instr) (sz : Size) (f : Core → Core) : Prop :=
        accepts .chord off sz = true → s.asleep .chord off (sizeBytes sz) = [] →
        s.heldLoad c .chord off (sizeBytes sz) = .nothing →
        (∀ b ∈ [a, a + sizeBytes sz - 1], ∃ x, s.l1 c (lineOf b) = some x ∧ x.st.loadHit = true) →
        ∃ t, exec i s = .next t ∧ t.core[c] = ((f { s.core[c] with blocked := false }).next c) ∧ t.chord = s.chord ∧
          t.mem = s.mem ∧ (∀ d : Cl, d ≠ c → t.core[d] = s.core[d])
      let scalar (i : Instr) (sz : Size) (v : Word) : Prop := hits i sz (fun k => k.writeG rd v (value (sizeBytes sz)).2)
      scalar (.lb c rd rs1 imm) .b1 ((field (value 1).1 0 8 : Byte).signExtend 32) ∧
      scalar (.lbu c rd rs1 imm) .b1 ((field (value 1).1 0 8 : Byte).setWidth 32) ∧
      scalar (.lh c rd rs1 imm) .b2 ((field (value 2).1 0 16 : BitVec 16).signExtend 32) ∧
      scalar (.lhu c rd rs1 imm) .b2 ((field (value 2).1 0 16 : BitVec 16).setWidth 32) ∧
      scalar (.lw c rd rs1 imm) .b4 (field (value 4).1 0 32) ∧
      (vok vd = true → a % 16 = 0 → hits (.lld c vd rs1 imm) .b16 (fun k => k.writeV vd (value 16).1 (value 16).2 3))) ∧
  (∀ (c : Cl) (rd rs1 rs2 : RegF) (off : Nat) (x : L1Line) (s : State), s.canIssue c = true →
      (s.core[c].readG rs1).2 = false → (s.core[c].readG rd).2 = false → s.agentDead c = false →
      let a := (s.core[c].readG rs1).1.toNat
      regionOf c a = .mem .chord off → off % 4 = 0 → s.asleep .chord off 4 = [] → s.core[c].egress = [] →
      s.l1 c (lineOf a) = some x → (x.st = .e ∨ x.st = .m) → x.poison.getLsbD (a / 16 % 4) = false →
      let word (y : L1Line) : Word := field y.data (128 * (a / 16 % 4) + 8 * (a % 16)) 32
      let old := word x
      let src := s.core[c].readG rs2
      let gets (t : State) : Prop := t.core[c].readG rd = (if rd = 0 then (0, false) else (old, src.2)) ∧
        (∀ r, r ≠ rd → t.core[c].readG r = s.core[c].readG r) ∧ t.mem = s.mem ∧
        (∀ l, l ≠ lineOf a → t.l1 c l = s.l1 c l) ∧ (∀ d : Cl, d ≠ c → t.core[d] = s.core[d] ∧ t.chord.l1d[d] = s.chord.l1d[d])
      let becomes (i : Instr) (new : Word) : Prop := ∃ t y, exec i s = .next t ∧ gets t ∧
        t.l1 c (lineOf a) = some y ∧ y.st = .m ∧ (src.2 = false → word y = new)
      becomes (.atswp c rd rs1 rs2) src.1 ∧
      becomes (.atadd c rd rs1 rs2) (old + src.1) ∧
      becomes (.atand c rd rs1 rs2) (old &&& src.1) ∧
      becomes (.ator c rd rs1 rs2) (old ||| src.1) ∧
      becomes (.atxor c rd rs1 rs2) (old ^^^ src.1) ∧
      (old = (s.core[c].readG rd).1 → becomes (.atcas c rd rs1 rs2) src.1) ∧
      (old ≠ (s.core[c].readG rd).1 → ∃ t, exec (.atcas c rd rs1 rs2) s = .next t ∧ gets t ∧
        t.l1 c (lineOf a) = some { x with st := .m }))

/-- A Voice's store to a memory it may write enters the egress hold with its address, width, data and poison, while one of the
four positions is free (R109, R163): memory and every register but PC are unchanged until it leaves. With no free position
nothing commits: not a store, and no other instruction (R163).
The Steward's store to a memory other than Chord that it may write, whose words read clean and are not the word an armed
injection waits for (R104): it stores exactly its bytes, every other byte of every memory reads as before, and no register but
PC changes.
Completes: sb, sh, sw, lst. -/
def Obligations.StoreResults : Prop :=
  (∀ (v : Vc) (rs2 rs1 vs : RegF) (imm : BitVec 16) (m : MemName) (off : Nat) (s : State), let c := vcl v
      s.canIssue c = true → (s.core[c].readG rs1).2 = false → writable c m = true → (m = .chord → s.agentDead c = false) →
      let a := (s.core[c].readG rs1).1 + imm.signExtend 32
      regionOf c a.toNat = .mem m off →
      let d := s.core[c].readG rs2
      let w := s.readV c vs
      let held (t : State) (sz : Size) (data : Native) (p : Bool) : Host.Outcome State Fault Refusal :=
        .next (t.onCore c (fun k => ({ k with egress := k.egress ++ [⟨.store a sz data p, false, false⟩] } : Core).next c))
      (accepts m off .b1 = true → exec (.sb c rs2 rs1 imm) s =
        held (s.fetched c) .b1 ((field d.1 0 8 : Byte).setWidth 128) d.2) ∧
      (accepts m off .b2 = true → exec (.sh c rs2 rs1 imm) s =
        held (s.fetched c) .b2 ((field d.1 0 16 : BitVec 16).setWidth 128) d.2) ∧
      (accepts m off .b4 = true → exec (.sw c rs2 rs1 imm) s = held (s.fetched c) .b4 (d.1.setWidth 128) d.2) ∧
      (accepts m off .b16 = true → vok vs = true → a.toNat % 16 = 0 → exec (.lst c vs rs1 imm) s =
        held ((s.fetched c).used 1) .b16 w.1 w.2)) ∧
  (∀ (c : Cl) (rd rs1 rs2 : RegF) (imm : BitVec 16) (s : State), 4 ≤ s.core[c].egress.length →
      ∀ i ∈ [Instr.sb c rs2 rs1 imm, .sh c rs2 rs1 imm, .sw c rs2 rs1 imm, .lst c rs2 rs1 imm, .add c rd rs1 rs2,
        .lw c rd rs1 imm, .beq c rs1 rs2 imm, .cpush c rs1 rs2, .fdone c rs1], exec i s = .next s) ∧
  (∀ (rs2 rs1 : RegF) (imm : BitVec 16) (m : MemName) (off : Nat) (s : State), s.canIssue stw = true →
      (s.core[stw].readG rs1).2 = false → (s.core[stw].readG rs2).2 = false → writable stw m = true → m ≠ .chord →
      s.memc.injGo = false →
      let a := (s.core[stw].readG rs1).1 + imm.signExtend 32
      regionOf stw a.toNat = .mem m off →
      let d := (s.core[stw].readG rs2).1
      let stores (i : Instr) (n : Nat) : Prop :=
        off + n ≤ m.bytes → s.asleep m off n = [] → (∀ l ∈ touched m off n, (s.cell l).syn = 0) →
        ∃ t, exec i s = .next t ∧
          (∀ j < n, t.byteAt m (off + j) = field d (8 * j) 8) ∧
          (∀ m' o, o < m'.bytes → (m' = m → o < off ∨ off + n ≤ o) → t.byteAt m' o = s.byteAt m' o) ∧
          (∀ c : Cl, t.core[c].g = s.core[c].g ∧ t.core[c].gTag = s.core[c].gTag)
      (m ≠ .verdict → stores (.sb stw rs2 rs1 imm) 1) ∧
      (m ≠ .verdict → stores (.sh stw rs2 rs1 imm) 2) ∧
      (accepts m off .b4 = true → stores (.sw stw rs2 rs1 imm) 4))

/-- LLD and LST at an address that is not 16-byte aligned raise LOAD_BUS and STORE_BUS in every region. -/
def Obligations.LaneAccessesAreAligned : Prop :=
  ∀ (c : Cl) (v rs1 : RegF) (imm : BitVec 16) (s : State), s.canIssue c = true → vok v = true →
    (s.core[c].readG rs1).2 = false →
    let a := (s.core[c].readG rs1).1 + imm.signExtend 32
    a.toNat % 16 ≠ 0 →
    exec (.lld c v rs1 imm) s = .next ((s.fetched c).excLoad c a) ∧
    exec (.lst c v rs1 imm) s = .next ((s.fetched c).excStore c a)

/-- Outside register space and the Verdict aliases: an access that the map forbids, or that its memory does not accept, raises
LOAD_BUS or STORE_BUS with its address (R75 to R77). -/
def Obligations.ForbiddenAccessesRaiseBusErrors : Prop :=
  ∀ (c : Cl) (rd rs1 : RegF) (imm : BitVec 16) (s : State), s.canIssue c = true → (s.core[c].readG rs1).2 = false →
    let a := (s.core[c].readG rs1).1 + imm.signExtend 32
    ((regionOf c a.toNat = .nothing ∨ ∃ m off, regionOf c a.toNat = .mem m off ∧ (readable c m && accepts m off .b4) = false) →
      exec (.lw c rd rs1 imm) s = .next ((s.fetched c).excLoad c a)) ∧
    ((regionOf c a.toNat = .nothing ∨ ∃ m off, regionOf c a.toNat = .mem m off ∧ (writable c m && accepts m off .b4) = false) →
      exec (.sw c rd rs1 imm) s = .next ((s.fetched c).excStore c a))

/-! ## Exceptions and system registers (06) -/

/-- Taking an exception (R152, R155, Table 06-8) with a stack that fits the own DTCM: CURLVL becomes 17, PC the handler's address
from word 64 + CODE of the vector table, EPC the faulting instruction, ECAUSE and EADDR the exception's, g2 falls by 32, and the
two words below it hold the stacked PC, STATUS, loop registers and g1, g3, g4, g5.
A double fault (R153): an exception at CURLVL 17, or with a stack that no frame fits in, stops the core and writes no
memory. A stopped core issues nothing. While an older held store to the frame has not been performed the entry waits for it (R133). -/
def Obligations.ExceptionEntry : Prop :=
  (∀ (c : Cl) (code : Nat) (detail : Byte) (eaddr : Word) (off vec : Nat) (s : State), let k := s.core[c]
      code < 16 → k.curLvl ≠ 17 → s.memc.injGo = false → s.osti.save = none → s.frameBusy c = false →
      (k.readG 2).2 = false → stackOff c ((k.readG 2).1 - 32) = some off → k.frameTag = false →
      vectorOff c k (64 + code) = some vec → (s.cell ⟨.itcm c, vec / 16⟩).syn = 0 → (s.cell ⟨.itcm c, vec / 16 + 1⟩).syn = 0 →
      let t := s.takeException c code detail eaddr
      let q := t.core[c]
      q.curLvl = 17 ∧ q.doubleFault = k.doubleFault ∧ q.inLoop = false ∧ q.epc = k.pc ∧ q.eaddr = eaddr ∧
        q.ecause = detail ++ BitVec.ofNat 8 code ∧ q.pc = field (s.peekBytes (.itcm c) vec 4).1 0 32 ∧
        q.readG 2 = ((k.readG 2).1 - 32, false) ∧ (∀ r : RegF, r ≠ 2 → q.readG r = k.readG r) ∧
        q.ie = k.ie ∧ q.maskLvl = k.maskLvl ∧ q.icuPend = k.icuPend ∧ q.lane = [] ∧
        (t.cell ⟨.dtcm c, off / 16⟩) = ⟨k.loopEnd ++ k.loopStart ++ k.loopCount ++ k.status ++ k.pc, 0⟩ ∧
        (t.cell ⟨.dtcm c, off / 16 + 1⟩) = ⟨(k.readG 5).1 ++ (k.readG 4).1 ++ (k.readG 3).1 ++ (k.readG 1).1, 0⟩ ∧
        (∀ d : Cl, d ≠ c → t.core[d] = s.core[d])) ∧
  (∀ (c : Cl) (code : Nat) (detail : Byte) (eaddr : Word) (s : State),
      (s.frameBusy c = true → s.takeException c code detail eaddr = s) ∧
      (s.frameBusy c = false →
        s.core[c].curLvl = 17 ∨ stackOff c ((s.core[c].readG 2).1 - 32) = none ∨ (s.core[c].readG 2).2 = true →
        (s.takeException c code detail eaddr).core[c].doubleFault = true ∧ (s.takeException c code detail eaddr).mem = s.mem) ∧
      (s.core[c].doubleFault = true → ∀ rd rs1 rs2 : RegF, exec (.add c rd rs1 rs2) s = .next s ∧
        exec (.sw c rs2 rs1 0) s = .next s ∧ exec (.reti c) s = .next s))

/-- SRR reads and SRW writes system register IMM[11:0]; a number that Table 06-1 does not implement raises ILLEGAL; a write to a
read-only register changes no register; an SRW of a tagged source raises POISON and leaves the register.
Completes: srr, srw. -/
def Obligations.SystemRegisterAccess : Prop :=
  ∀ (c : Cl) (rd rs1 : RegF) (n : BitVec 16) (s : State), s.canIssue c = true → let k := n.toNat % 4096
    (sysReg k = true → exec (.srr c rd n) s = .next ((s.fetched c).onCore c (fun q =>
        ((q.sysAfterRead k).writeG rd (q.sysRead c k) false).next c)) ∧
      (∀ r : RegF, r ≠ rd → ((s.core[c].sysAfterRead k).writeG rd (s.core[c].sysRead c k) false).readG r = s.core[c].readG r)) ∧
    (sysReg k = true → (s.core[c].readG rs1).2 = false → exec (.srw c rs1 n) s =
      .next (((s.fetched c).sysWrite c k (s.core[c].readG rs1).1).onCore c (fun q => q.next c))) ∧
    (sysReg k = true → (s.core[c].readG rs1).2 = true → exec (.srw c rs1 n) s =
      .next ((s.fetched c).excPoison c 3 (rs1.setWidth 32))) ∧
    (sysReg k = false → exec (.srr c rd n) s = .next ((s.fetched c).excIllegal c (encI 0x2C rd 0 n)) ∧
      exec (.srw c rs1 n) s = .next ((s.fetched c).excIllegal c (encI 0x2D 0 rs1 n))) ∧
    (k ∈ [0x00, 0x02, 0x03, 0x04, 0x06, 0x07, 0x08, 0x09, 0x0A, 0x10, 0x11, 0x12, 0x16, 0x30, 0x31] →
      ∀ w, s.sysWrite c k w = s.onCore c (fun q => { q with cycleSnap := none }))

/-- WAIT with nothing ready or acceptable puts the cluster into IDLE (R160); FENCE and IFLUSH complete with an empty egress hold
and drain with a held transaction, when no source is accepted (R149, R145, R154); IFLUSH invalidates the loop buffer.
TRAP takes exception 9 with the low byte of its register as DETAIL and EADDR 0 (log 42). RETI outside a
loop with a clean frame and no acceptable source unstacks it (R156): PC, CURLVL, IE, MASKLVL, the loop registers and g1, g3, g4,
g5 come from the frame and g2 rises by 32.
Completes: wait, fence, iflush, trap, reti. -/
def Obligations.TrapAndWaitResults : Prop :=
  (∀ (c : Cl) (s : State), s.canIssue c = true →
      (s.core[c].inLoop = false → s.core[c].cueReady = 0 → s.core[c].acceptable = none →
        ∃ t, exec (.wait c) s = .next t ∧ t.core[c].waiting = true ∧ t.core[c].pc = s.core[c].pc + 4 ∧
          t.core[c].g = s.core[c].g ∧ t.powerOf (rqCl c) = .idle ∧ t.mem = s.mem) ∧
      (s.core[c].egress = [] → exec (.fence c) s =
        .next ((s.fetched c).onCore c (fun k => ({ k with draining := false } : Core).next c))) ∧
      (s.core[c].inLoop = false → s.core[c].egress = [] → exec (.iflush c) s =
        .next ((s.fetched c).onCore c (fun k => ({ k with loopBuf := false, draining := false } : Core).next c))) ∧
      (s.core[c].inLoop = false → s.core[c].egress ≠ [] → ∀ i ∈ [Instr.fence c, .iflush c],
        exec i s = .next ((s.fetched c).onCore c (fun k => { k with draining := true })))) ∧
  (∀ (c : Cl) (rs2 : RegF) (s : State), s.canIssue c = true →
      exec (.trap c rs2) s = .next ((s.fetched c).takeException c 9 (field (s.core[c].readG rs2).1 0 8) 0) ∧
      (∀ off, s.core[c].inLoop = false → (s.core[c].readG 2).2 = false → stackOff c (s.core[c].readG 2).1 = some off →
        s.frameHeld c off = false →
        let lo := s.cell ⟨.dtcm c, off / 16⟩
        let hi := s.cell ⟨.dtcm c, off / 16 + 1⟩
        lo.syn = 0 → hi.syn = 0 → s.core[c].chainTo lo.data = none →
        ∃ t, exec (.reti c) s = .next t ∧ t.mem = s.mem ∧
          t.core[c].pc = field lo.data 0 32 ∧ t.core[c].curLvl = field lo.data 32 5 ∧ t.core[c].ie = lo.data.getLsbD 37 ∧
          t.core[c].maskLvl = field lo.data 40 5 ∧ t.core[c].loopCount = field lo.data 64 32 ∧
          t.core[c].loopStart = field lo.data 96 16 ∧ t.core[c].loopEnd = field lo.data 112 16 ∧
          t.core[c].readG 1 = (field hi.data 0 32, false) ∧ t.core[c].readG 3 = (field hi.data 32 32, false) ∧
          t.core[c].readG 4 = (field hi.data 64 32, false) ∧ t.core[c].readG 5 = (field hi.data 96 32, false) ∧
          t.core[c].readG 2 = ((s.core[c].readG 2).1 + 32, false) ∧
          (∀ r : RegF, r ∉ [(1 : RegF), 2, 3, 4, 5] → t.core[c].readG r = s.core[c].readG r)))

/-- In a loop, LOOP, IFLUSH, RETI, WAIT, CALL, CALLR and a branch into the body raise ILLEGAL_LOOP (R144).
What the encoding checks of R131 and R143 refuse raises ILLEGAL with the instruction word: a v field with bit 4 set, LHI with
RS1 other than g0, LEXT with a non-zero reserved field, FDONE on the Steward. -/
def Obligations.IllegalInstructions : Prop :=
  (∀ (c : Cl) (rd rs1 rs2 : RegF) (off imm : BitVec 16) (j : BitVec 26) (s : State), s.canIssue c = true →
      s.core[c].inLoop = true →
      let traps (i : Instr) (w : Word) : Prop := exec i s = .next ((s.fetched c).takeException c 7 0 w)
      traps (.iflush c) (encR 0x2E 0 0 0 4) ∧ traps (.reti c) (encR 0x2E 0 0 0 1) ∧ traps (.wait c) (encR 0x2E 0 0 0 2) ∧
      traps (.call c j) (encJ 0x26 j) ∧ traps (.callr c rd rs1 imm) (encI 0x27 rd rs1 imm) ∧
      (inBody c s.core[c] (branchTarget s.core[c].pc off) = true → traps (.beq c rs1 rs2 off) (encI 0x20 rs1 rs2 off))) ∧
  (∀ (c : Cl) (rd rs1 rs2 : RegF) (imm : BitVec 16) (pos : BitVec 7) (w5 : BitVec 5) (z : BitVec 3) (s : State),
      s.canIssue c = true →
      (rs1 ≠ 0 → exec (.lhi c rd rs1 imm) s = .next ((s.fetched c).takeException c 1 0 (encI 0x06 rd rs1 imm))) ∧
      (vok rd = false → exec (.lmov c rd rs1) s = .next ((s.fetched c).takeException c 1 0 (encR 0x30 rd rs1 0 0)) ∧
        exec (.lld c rd rs1 imm) s = .next ((s.fetched c).takeException c 1 0 (encI 0x34 rd rs1 imm))) ∧
      (vok rs1 = false → exec (.judge c rd rs1 rs2) s =
        .next ((s.fetched c).takeException c 1 0 (encR 0x30 rd rs1 rs2 13))) ∧
      (z ≠ 0 → exec (.lext c rd rs1 pos w5 false z) s = .next ((s.fetched c).takeException c 1 0 (encX rd rs1 pos w5 false z))) ∧
      (c = stw → exec (.fdone c rs1) s = .next ((s.fetched c).takeException c 1 0 (encR 0x2E 0 rs1 0 5))))

/-! ## The egress hold (05, 06, 07) -/

/-- CPUSH and FDONE on a Voice (R150, R151): the word enters the hold with ORIGIN the Voice's VID and HW_ORIGIN clear; a tagged
word is blocked at check 1 and POISON is raised; FDONE enters the hold for a range that OWNER gives to the Voice, raises REFUSED
for any other, and waits for older stores and pushes.
Completes: cpush, fdone. -/
def Obligations.CpushAndFdoneResults : Prop :=
  ∀ (v : Vc) (vd gs : RegF) (s : State), let c := vcl v
    s.canIssue c = true → vok vd = true →
    let d := s.readV c vd
    let r : BitVec 6 := field (s.core[c].readG gs).1 0 6
    let enters (t : State) (op : EgressOp) : State :=
      t.onCore c (fun k => ({ k with egress := k.egress ++ [⟨op, false, false⟩] } : Core).next c)
    (d.2 = false → ∃ w : Native,
      exec (.cpush c vd gs) s = .next (enters ((s.fetched c).used 1) (.cpush w r)) ∧
      field w 80 4 = BitVec.ofNat 4 v.val ∧ w.getLsbD 84 = false ∧
      (∀ i, i < 128 → (i < 80 ∨ 85 ≤ i) → w.getLsbD i = d.1.getLsbD i)) ∧
    (d.2 = true → s.frameBusy c = false → ∃ t, exec (.cpush c vd gs) s = .next t ∧ t.gov.fallback.getLsbD r.toNat = true ∧
      t.gov.staged = s.gov.staged ∧ t.core[c].egress = s.core[c].egress ∧
      (field t.gov.lastBlocked 112 4 : BitVec 4) = 1) ∧
    (s.core[c].egress.any Egress.beforeFdone = false → s.ownerOf r = v →
      exec (.fdone c gs) s = .next (enters (s.fetched c) (.fdone r))) ∧
    (s.core[c].egress.any Egress.beforeFdone = false → s.ownerOf r ≠ v →
      exec (.fdone c gs) s = .next ((s.fetched c).takeException c 8 0 (r.setWidth 32))) ∧
    (s.core[c].egress.any Egress.beforeFdone = true → exec (.fdone c gs) s = .next (s.fetched c))

/-- A running Voice's held store at the head of the hold leaves (R163): one to a memory other than Chord that is awake, whose
words read clean, stores exactly its bytes; its position stays taken until it is acknowledged. A held command word goes to the
Governor's intake and a held FDONE completes its range. A held read of register space brings its data to RD, and the core goes on
(R109, R167).
The acknowledgement of the oldest released transaction frees its position (R163); a store that failed at its target becomes
STORE_LATE, which is taken with the store's address at an instruction boundary (Table 06-9).
Completes: egressRelease, egressAck, storeLate. -/
def Obligations.EgressResults : Prop :=
  (∀ (v : Vc) (e : Egress) (rest : List Egress) (s : State), let c := vcl v
      s.core[c].inReset = false → s.core[c].doubleFault = false → s.isolated c = false → s.powerOf (rqVoice v) = .run →
      s.storeWaits c = false → s.core[c].egress = e :: rest → e.released = false →
      (∀ a d m off, e.op = .store a .b4 d false → regionOf c a.toNat = .mem m off → m ≠ .chord → writable c m = true →
        accepts m off .b4 = true → s.asleep m off 4 = [] → s.memc.injGo = false → (∀ l ∈ touched m off 4, (s.cell l).syn = 0) →
        ∃ t, exec (.egressRelease v) s = .next t ∧
          (∀ j < 4, t.byteAt m (off + j) = field d (8 * j) 8) ∧
          (∀ m' o, o < m'.bytes → (m' = m → o < off ∨ off + 4 ≤ o) → t.byteAt m' o = s.byteAt m' o) ∧
          t.core[c].egress = { e with released := true, error := false } :: rest ∧
          (∀ q : Cl, t.core[q].g = s.core[q].g ∧ t.core[q].pc = s.core[q].pc)) ∧
      (∀ w r, e.op = .cpush w r → ∃ t, exec (.egressRelease v) s = .next t ∧
        t = (s.onCore c (fun k => { k with egress := { e with released := true, error := false } :: rest })).intake c r w false) ∧
      (∀ r, e.op = .fdone r → exec (.egressRelease v) s = .next
        ((s.onCore c (fun k => { k with egress := { e with released := true, error := false } :: rest })).frameDone v r)) ∧
      (∀ a kind rd b o d s1, e.op = .read a kind.size (.load kind rd) → regionOf c a.toNat = .periph b o →
        s.regLoad (initiatorOf c) b o kind.size = (s1, d, false) → (∀ x ∈ rest, x.released = false) →
        ∃ t, exec (.egressRelease v) s = .next t ∧
          t.core[c].readG rd = (if rd = 0 then (0, false) else (kind.extend d, false)) ∧
          (∀ r : RegF, r ≠ rd → t.core[c].readG r = s.core[c].readG r) ∧ t.core[c].blocked = false ∧
          t.core[c].egress = { e with released := true, error := false } :: rest ∧ t.mem = s.mem ∧
          (∀ q : Cl, q ≠ c → t.core[q] = s.core[q]))) ∧
  (∀ (v : Vc) (s : State), let c := vcl v
      (∀ e rest, s.core[c].egress = e :: rest → e.released = true → s.storeWaits c = false →
        ∃ t, exec (.egressAck v) s = .next t ∧ t.core[c].egress = rest ∧ t.mem = s.mem ∧ t.core[c].g = s.core[c].g ∧
          (e.error = false → t.core[c].late = s.core[c].late) ∧
          (∀ a sz d p, e.op = .store a sz d p → e.error = true → t.core[c].late = s.core[c].late ++ [a])) ∧
      (∀ a, s.core[c].late = [a] → (s.onCore c (fun k => { k with late := [] })).runnable c = true →
        s.frameBusy c = false → exec (.storeLate c) s = .next ((s.onCore c (fun k => { k with late := [] })).takeException c 5 0 a)))

/-- What the Governor's intake does with a well-formed word of the range's owner (R211): a Voice's word waits in staging, the
last of its Voice's, until its range's FDONE; nothing is released.
A word that fails its format check is counted, copied with its check and cluster, and reported; it reaches no trunk (R214,
Table 09-3 check 2). -/
def Obligations.CommandWordIntake : Prop :=
  (∀ (v : Vc) (r : BitVec 6) (w : Native) (s : State),
      formatOk w = true → s.originOk v r w = true → s.occupied (vcl v) < 4096 → getN s.gov.pushed r.toNat 0 < 2048 →
      let t := s.intake (vcl v) r w false
      t.gov.staged[vcl v] = s.gov.staged[vcl v] ++ [⟨r, w⟩] ∧ t.trk = s.trk ∧ t.gov.relCmd = s.gov.relCmd ∧
        t.gov.cnt = s.gov.cnt ∧ t.gov.lastBlocked = s.gov.lastBlocked ∧ t.mem = s.mem ∧
        (∀ u : Vc, u ≠ v → t.gov.staged[vcl u] = s.gov.staged[vcl u])) ∧
  (∀ (c : Cl) (gs : BitVec 6) (w : Native) (s : State), formatOk w = false →
      let t := s.intake c gs w false
      t.trk = s.trk ∧ t.gov.relCmd = s.gov.relCmd ∧ t.gov.staged = s.gov.staged ∧
        getN t.gov.cnt 1 0 = getN s.gov.cnt 1 0 + 1 ∧
        (field t.gov.lastBlocked 112 4 : BitVec 4) = 2 ∧ (field t.gov.lastBlocked 116 4 : BitVec 4) = BitVec.ofNat 4 c.val ∧
        (field t.gov.lastBlocked 0 112 : BitVec 112) = field w 0 112 ∧
        t.gov.event.getLsbD 2 = true ∧ t.core[c].icuPend.getLsbD 14 = true ∧
        (∃ d, t.hub.pending = s.hub.pending ++ [⟨.cmdFormat, BitVec.ofNat 4 c.val, d⟩]))

/-! ## Interrupts, Cue and ICU (06) -/

/-- An interrupt is accepted by a core that can run (R154, R155): with no later source of a higher level, the frame is stacked,
CURLVL becomes the source's level, PC comes from its vector, EPC is the interrupted PC, and the source's pending bit clears; an
abandoned divide counts (R147).
While a FENCE or IFLUSH drains, or an older held store to the frame is not performed, no entry takes place (R154, R133).
What a core accepts (R154): with IE set and CURLVL other than 17, a source that is pending and enabled with a level above
CURLVL and MASKLVL, none of a higher level, and of that level the lowest number.
Completes: interruptEntry. -/
def Obligations.InterruptResults : Prop :=
  (∀ (c : Cl) (inDivide : Bool) (src off vec : Nat) (s : State), let k := s.core[c]
      s.runnable c = true → k.draining = false → s.frameBusy c = false → k.acceptable = some src → src < 64 → s.memc.injGo = false → s.osti.save = none →
      (k.readG 2).2 = false → stackOff c ((k.readG 2).1 - 32) = some off → vectorOff c k src = some vec →
      (s.cell ⟨.itcm c, vec / 16⟩).syn = 0 → (s.cell ⟨.itcm c, vec / 16 + 1⟩).syn = 0 →
      ∃ t, exec (.interruptEntry c inDivide 0) s = .next t ∧
        t.core[c].curLvl = BitVec.ofNat 5 (k.srcLevel src) ∧ t.core[c].epc = k.pc ∧
        t.core[c].pc = field (s.peekBytes (.itcm c) vec 4).1 0 32 ∧ t.core[c].icuPend.getLsbD src = false ∧
        (∀ j, j < 64 → j ≠ src → t.core[c].icuPend.getLsbD j = k.icuPend.getLsbD j) ∧
        t.core[c].divAbandon = (if inDivide then k.divAbandon + 1 else k.divAbandon) ∧
        t.core[c].readG 2 = ((k.readG 2).1 - 32, false) ∧ (∀ r : RegF, r ≠ 2 → t.core[c].readG r = k.readG r) ∧
        (∀ d : Cl, d ≠ c → t.core[d] = s.core[d])) ∧
  (∀ (c : Cl) (inDivide : Bool) (late : BitVec 64) (s : State), s.core[c].draining = true ∨ s.frameBusy c = true →
      exec (.interruptEntry c inDivide late) s = .next s) ∧
  (∀ k : Core, (∀ i, k.acceptable = some i →
        k.ie = true ∧ k.curLvl ≠ 17 ∧ k.icuPend.getLsbD i = true ∧ k.icuEn.getLsbD i = true ∧
        k.curLvl.toNat < k.srcLevel i ∧ k.maskLvl.toNat < k.srcLevel i ∧
        ∀ j, k.icuPend.getLsbD j = true → k.icuEn.getLsbD j = true → k.curLvl.toNat < k.srcLevel j →
          k.maskLvl.toNat < k.srcLevel j → k.srcLevel j < k.srcLevel i ∨ (k.srcLevel j = k.srcLevel i ∧ i ≤ j)) ∧
      (k.acceptable = none → k.ie = false ∨ k.curLvl = 17 ∨ ∀ j, k.icuPend.getLsbD j = true → k.icuEn.getLsbD j = true →
        ¬ (k.curLvl.toNat < k.srcLevel j ∧ k.maskLvl.toNat < k.srcLevel j)))

/-- A waiting core whose cluster is awake resumes when a Cue slot is ready or a source is acceptable (R160); ICU_SET by a core
that can run makes the sources of Table 06-10 pending and no other.
One cycle of the Cue (R158, R159): a post of an unarmed slot is ignored, an armed slot becomes ready, a cancel of the same
cycle wins over a post; nothing but the Cue, its counters and source 13 changes.
CUE_NEXT: the ready slot of highest PRIO, the lowest index among equals, is returned with its ENTRY and its READY bit clears;
with none ready EMPTY is set and nothing clears.
Completes: waitWake, icuSet, cuePost, cueCancel, cueNext. -/
def Obligations.CueAndWakeResults : Prop :=
  (∀ (c : Cl) (hi : Bool) (mask : Word) (s : State),
      (s.core[c].waiting = true → s.powerOf (rqCl c) = .idle → s.isolated c = false →
        (s.core[c].cueReady ≠ 0 ∨ s.core[c].acceptable.isSome = true) →
        ∃ t, exec (.waitWake c) s = .next t ∧ t.core[c].waiting = false ∧ t.powerOf (rqCl c) = .run ∧
          t.core[c].pc = s.core[c].pc ∧ t.core[c].g = s.core[c].g ∧ t.mem = s.mem) ∧
      (s.runnable c = true → ∃ t, exec (.icuSet c hi mask) s = .next t ∧
        (∀ i, i < 64 → t.core[c].icuPend.getLsbD i = (s.core[c].icuPend.getLsbD i ||
          ((decide (i < 32) != hi) && mask.getLsbD (i % 32) &&
            (decide (i ≤ 14) || (decide (c = stw) && decide (16 ≤ i) && decide (i ≤ 54)))))) ∧
        t.core[c].g = s.core[c].g ∧ t.core[c].pc = s.core[c].pc ∧ (∀ d : Cl, d ≠ c → t.core[d] = s.core[d]) ∧ t.mem = s.mem)) ∧
  ((∀ (c : Cl) (mask cancel : Word) (s : State), s.runnable c = true →
        ∀ i ∈ [Instr.cuePost c mask cancel, .cueCancel c cancel [mask]], ∃ t, exec i s = .next t ∧
          (∀ j, j < 32 → t.core[c].cueReady.getLsbD j =
            (!cancel.getLsbD j && (s.core[c].cueReady.getLsbD j ||
              (mask.getLsbD j && (getN s.core[c].cueSlot j ⟨0, 0, 0, false⟩).armed)))) ∧
          t.core[c].cueSlot = s.core[c].cueSlot ∧ t.core[c].g = s.core[c].g ∧ t.core[c].pc = s.core[c].pc ∧
          (∀ j, j < 64 → j ≠ 13 → t.core[c].icuPend.getLsbD j = s.core[c].icuPend.getLsbD j) ∧
          (∀ d : Cl, d ≠ c → t.core[d] = s.core[d]) ∧ t.mem = s.mem) ∧
    (∀ (c : Cl) (s : State), s.runnable c = true →
        let slot (j : Nat) := getN s.core[c].cueSlot j ⟨0, 0, 0, false⟩
        (s.core[c].cueReady = 0 → ∃ t, exec (.cueNext c [] 0) s = .next t ∧ t.ans.data.getLsbD 31 = true ∧
          t.core[c].cueReady = 0) ∧
        (∀ j, j < 32 → s.core[c].cueReady.getLsbD j = true →
          (∀ i, i < 32 → s.core[c].cueReady.getLsbD i = true →
            (slot i).prio.toNat < (slot j).prio.toNat ∨ ((slot i).prio = (slot j).prio ∧ j ≤ i)) →
          ∃ t, exec (.cueNext c [] 0) s = .next t ∧ t.ans.data.getLsbD 31 = false ∧
            field t.ans.data 0 5 = BitVec.ofNat 5 j ∧ field t.ans.data 8 16 = (slot j).entry ∧
            t.core[c].cueReady.getLsbD j = false ∧
            (∀ i, i < 32 → i ≠ j → t.core[c].cueReady.getLsbD i = s.core[c].cueReady.getLsbD i) ∧
            t.core[c].cueSlot = s.core[c].cueSlot ∧ t.core[c].g = s.core[c].g)))

/-- A lane, branch or arithmetic instruction of one cluster changes nothing of another cluster's core, whatever it ends in: its
effect, a stall or an exception. -/
def Obligations.ClustersAreIsolated : Prop :=
  ∀ (c d : Cl) (x y z : RegF) (off : BitVec 16) (s t : State), d ≠ c →
    ∀ i ∈ [Instr.add c x y z, .sll c x y z, .addi c x y off, .lhi c x y off, .mul c x y z, .div c x y z, .lmov c x y,
      .lmacD c x y z, .judge c x y z, .lext c x y 0 0 false 0, .beq c x y off, .call c 0, .loop c x y off, .trap c x, .reti c,
      .wait c, .fence c, .iflush c, .srr c x off],
      exec i s = .next t → t.core[d] = s.core[d]

/-! ## Register space (01) -/

/-- Register space accepts only aligned 32-bit and 16-byte-aligned 128-bit accesses: any other width or alignment ends with a
bus error, a core takes it as a precise exception, and no register changes. An aligned load brings the Steward the register's value;
a Voice's waits in the egress hold (R109).
A read of an unimplemented offset inside a 64 KiB block returns zero. A write to one is ignored. An access that covers one sets
RSVD_ACC in the block's BLK_STATUS.
Completes: registerWrite. -/
def Obligations.RegisterSpaceRules : Prop :=
  ((∀ (i : Initiator) (addr : Word) (b : BlkId) (o : Nat) (sz : Size) (d hw : Native) (p : Bool) (s : State),
      periphOf addr.toNat = some (b, o) →
      ¬ ((sz = .b4 ∧ o % 4 = 0) ∨ (sz = .b16 ∧ o % 16 = 0)) →
      exec (.registerWrite i addr sz d p hw) s = .next { s with ans := ⟨0, false, true, [], 0⟩ } ∧
      s.regLoad i b o sz = (s, 0, true) ∧ s.regStore i b o sz d hw = (s, true)) ∧
    (∀ (c : Cl) (r rs1 : RegF) (imm : BitVec 16) (b : BlkId) (o : Nat) (s : State), s.canIssue c = true →
      (s.core[c].readG rs1).2 = false →
      let a := (s.core[c].readG rs1).1 + imm.signExtend 32
      regionOf c a.toNat = .periph b o →
      (o % 4 ≠ 0 → exec (.lw c r rs1 imm) s = .next ((s.fetched c).excLoad c a) ∧
        exec (.sw c r rs1 imm) s = .next ((s.fetched c).excStore c a)) ∧
      exec (.lh c r rs1 imm) s = .next ((s.fetched c).excLoad c a) ∧
      exec (.lb c r rs1 imm) s = .next ((s.fetched c).excLoad c a) ∧
      exec (.sh c r rs1 imm) s = .next ((s.fetched c).excStore c a) ∧
      exec (.sb c r rs1 imm) s = .next ((s.fetched c).excStore c a) ∧
      (o % 4 = 0 → s.core[c].egress = [] →
        (c = stw → let x := (s.fetched c).regLoad .steward b o .b4
          exec (.lw c r rs1 imm) s = .next (x.1.onCore c (fun k => (k.writeG r (field x.2.1 0 32) false).next c))) ∧
        (c ≠ stw → exec (.lw c r rs1 imm) s = .next ((s.fetched c).onCore c (fun k =>
          { k with blocked := true, egress := [⟨.read a .b4 (.load .lw r), false, false⟩] })))))) ∧
  (∀ (i : Initiator) (b : BlkId) (o : Nat) (sz : Size) (d : Native) (s : State), acceptsReg o sz = true → o < 0x10000 →
      (s.mayRead i = true → (∃ x ∈ lanesAt o sz, s.readReg b x = none) → (s.regLoad i b o sz).1.hdr[b].rsvdAcc = true) ∧
      ((∀ x ∈ lanesAt o sz, s.readReg b x = none) → (∀ x ∈ s.snaps, ¬ (x.init = i ∧ x.blk = b ∧ x.off + 4 = o)) →
        (s.mayRead i = true → (s.regLoad i b o sz).2 = (0, false) ∧ (s.regLoad i b o sz).1.hdr[b].rsvdAcc = true ∧
          (s.regLoad i b o sz).1.core = s.core ∧ (s.regLoad i b o sz).1.mem = s.mem) ∧
        (s.mayWrite i b o sz = true → let r := s.regStore i b o sz d 0
          r.2 = false ∧ r.1.hdr[b].rsvdAcc = true ∧ r.1.core = s.core ∧ r.1.mem = s.mem ∧ r.1.memc = s.memc ∧
          r.1.osti = s.osti ∧ r.1.chord = s.chord ∧ r.1.unis = s.unis ∧ r.1.trk = s.trk ∧ r.1.gov = s.gov ∧ r.1.hub = s.hub ∧
          r.1.metr = s.metr ∧ r.1.cres = s.cres ∧ r.1.aon = s.aon ∧ r.1.rst = s.rst ∧ r.1.hmbx = s.hmbx ∧ r.1.mirl = s.mirl)))

/-- REGISTER_WRITE by the Steward of a 32-bit counter loads it; the command touches no memory, no core and no other counter.
A counter incremented beyond its all-ones value wraps to zero and sets its CNT_OVF bit; every other increment sets none.
A write to the low half of a 64-bit counter loads the low half and clears the high half. A write to the high half alone is
ignored. A 128-bit store loads both halves in the same cycle. -/
def Obligations.CounterResults : Prop :=
  ((∀ (addr : Word) (b : BlkId) (o n : Nat) (d : Native) (s : State),
        periphOf addr.toNat = some (b, o) → counterAt b o = some n → (∀ t, trkOfBlk b = some t → s.populated t = true) →
        ∃ t, exec (.registerWrite .steward addr .b4 d false 0) s = .next t ∧ t.cntGet b n = field d 0 32 ∧
          t.ans.error = false ∧ t.mem = s.mem ∧ t.core = s.core ∧
          (∀ b' o' n', counterAt b' o' = some n' → (b' ≠ b ∨ n' ≠ n) → t.cntGet b' n' = s.cntGet b' n')) ∧
    (∀ (b : BlkId) (o n : Nat) (s : State), counterAt b o = some n → let t := s.cntEvent b n
        t.cntGet b n = s.cntGet b n + 1 ∧
        (∀ j, j < 32 → t.hdr[b].cntOvf.getLsbD j =
          (s.hdr[b].cntOvf.getLsbD j || (decide (j = firstOvf b + n) && s.cntGet b n == BitVec.allOnes 32))) ∧
        (∀ b' : BlkId, b' ≠ b → t.hdr[b'] = s.hdr[b']) ∧ t.mem = s.mem ∧ t.core = s.core)) ∧
  (∀ (addr : Word) (b : BlkId) (o : Nat) (d : Native) (s : State), isWide b o = true →
      (∀ t, trkOfBlk b = some t → s.populated t = true) →
      (periphOf addr.toNat = some (b, o) → ∃ t, exec (.registerWrite .steward addr .b4 d false 0) s = .next t ∧
        t.wideGet b o = (field d 0 32 : Word).setWidth 64) ∧
      (periphOf addr.toNat = some (b, o + 4) → ∃ t, exec (.registerWrite .steward addr .b4 d false 0) s = .next t ∧
        t.wideGet b o = s.wideGet b o) ∧
      (periphOf addr.toNat = some (b, o) → ∃ t, exec (.registerWrite .steward addr .b16 d false 0) s = .next t ∧
        t.wideGet b o = field d 0 64))

/-- COUNTER_SNAPSHOT_READ (R8, R16): the low half is returned and the high half is kept for this initiator's next access; a
read in the cycle in which the counter wraps returns all ones, and the wrapped value and CNT_OVF are there afterwards.
Completes: counterSnapshotRead. -/
def Obligations.SnapshotReads : Prop :=
  ∀ (addr addr2 : Word) (b : BlkId) (o : Nat) (s : State), isWide b o = true → periphOf addr.toNat = some (b, o) →
    periphOf addr2.toNat = some (b, o + 4) → (∀ t, trkOfBlk b = some t → s.populated t = true) →
    (∀ x ∈ s.snaps, x.off + 4 ≠ o) →
    (∃ t, exec (.counterSnapshotRead .steward addr false) s = .next t ∧
      t.ans.data = (field (s.wideGet b o) 0 32 : Word).setWidth 128 ∧ t.ans.error = false ∧ t.mem = s.mem ∧ t.core = s.core ∧
      ∀ n, ∃ u, exec (.counterSnapshotRead .steward addr2 false) (t.widePut b o n) = .next u ∧
        u.ans.data = (field (s.wideGet b o) 32 32 : Word).setWidth 128) ∧
    (s.wideGet b o = BitVec.allOnes 64 → ∃ t, exec (.counterSnapshotRead .steward addr true) s = .next t ∧
      t.ans.data = (BitVec.allOnes 32).setWidth 128 ∧ t.wideGet b o = 0 ∧ t.hdr[b].cntOvf ≠ 0)

/-- Only the Steward may write ARB_CFG: its write loads the two rank bits; a write from any other initiator is completed with a
bus error and changes nothing else.
Completes: arbCfgWrite. -/
def Obligations.ArbCfgBelongsToTheSteward : Prop :=
  ∀ (i : Initiator) (d : Word) (s : State),
    (∃ t, exec (.arbCfgWrite .steward d) s = .next t ∧ t.arbCfg = field d 0 2 ∧ t.ans.error = false ∧ t.mem = s.mem ∧
      t.core = s.core ∧ t.gov = s.gov ∧ t.unis = s.unis ∧ t.chord = s.chord) ∧
    (i ≠ .steward → exec (.arbCfgWrite i d) s = .next { s with ans := ⟨0, false, true, [], 0⟩ })

/-- TABLE_SYNC (R14, R19): SYNC is set; a second one is held and starts when the first completes, without a gap; the reload of
a trunk replaces its 32 route entries by those in memory, each whole; it changes no memory where no cache holds a copy and none is on
its way.
Completes: tableSync, tableSyncDone. -/
def Obligations.TableSyncResults : Prop :=
  ∀ (t : TrkId) (b : BlkId) (s : State), s.populated t = true → (b = blkTrk t ∨ b = blkUnis) →
    (s.hdr[b].sync = false → ∃ u, exec (.tableSync b) s = .next u ∧ u.hdr[b].sync = true ∧
      u.hdr[b].syncHeld = s.hdr[b].syncHeld ∧ u.trk = s.trk ∧ u.unis.chmap = s.unis.chmap ∧ u.mem = s.mem) ∧
    (s.hdr[b].sync = true → ∃ u, exec (.tableSync b) s = .next u ∧ u.hdr[b].sync = true ∧ u.hdr[b].syncHeld = true ∧
      u.trk = s.trk ∧ u.unis = s.unis) ∧
    (s.hdr[b].sync = true → s.hdr[b].syncHeld = false → ∃ u, exec (.tableSyncDone b) s = .next u ∧ u.hdr[b].sync = false ∧
      (s.noCopies → u.mem = s.mem ∧
        (b = blkTrk t → ∀ k : Fin 32, u.trk[t].route[k] = some (s.routeMem t (BitVec.ofNat 5 k.val)))) ∧
      (∀ k : Fin 32, b = blkTrk t → u.trk[t].route[k].isSome = true) ∧
      (∀ q : TrkId, b ≠ blkTrk q → u.trk[q] = s.trk[q])) ∧
    (s.hdr[b].sync = true → s.hdr[b].syncHeld = true → ∃ u, exec (.tableSyncDone b) s = .next u ∧ u.hdr[b].sync = true ∧
      u.hdr[b].syncHeld = false)


/-! ## Frames, clocks and watchdogs (02, 10) -/

/-- FRAME_BOUNDARY of a device that is not in a formed pair and readmits no Voice (R22, R237, R253): FRAME_NOW counts, the next
boundary is one period later, the waiting period takes effect, the route caches and the records of the old frame are discarded; the
frame that was open is sealed for judging until the boundary after next, and every cluster's FRAME names it. A live Voice whose probe at the seal
deviates goes out with cause PROBE (R112). FRAME_OPEN_FILL (R57): every
slot of the open buffer that no record of the frame has filled holds the poisoned MISSING word, filled slots keep theirs. HEARTBEAT
(R44, R216, R236): the instant is used up, the bucket is refilled, a trunk in UP or TRAIN sends the heartbeat, in TRAIN with EPOCH 0
(Table 03-2), and LT_ADJ gives one interval's slew. VOICE_PRE_WAKE (R238) books every live Voice in RETAIN and asks for its grant.
FRAME_WARN (R239) reaches the live Voices with an unfinished range and no other. Where the judging deadline comes on the way it takes
effect as well, and nothing beyond its parts changes (R23).
Completes: frameBoundary, frameOpenFill, heartbeat, voicePreWake, frameWarn. -/
def Obligations.FrameScheduleResults : Prop :=
  ∀ s : State,
    (∀ at', s.boundaryAt = some at' → s.formed = false → s.unis.rejoin = false → s.mirl.soloPending = false →
      (∀ v : Vc, s.unis.alive.getLsbD v.val = true → s.probeComp v = 0) →
      ∃ u, exec .frameBoundary s = .next u ∧
        u.metr.frameNow = s.metr.frameNow + 1 ∧ u.metr.openAt = some at' ∧ u.metr.nextAt = at' + period u.metr.sweep ∧
        u.metr.sweepNext = none ∧ (s.mirl.sweepAt = none → u.metr.sweep = s.metr.sweepNext.getD s.metr.sweep) ∧
        (∀ q : TrkId, (∀ k : Fin 32, u.trk[q].route[k] = none) ∧ u.trk[q].written = []) ∧
        (s.metr.openAt = none → u.metr.judged = none) ∧
        (∀ t0, s.metr.openAt = some t0 → (∃ j, u.metr.judged = some j ∧ j.frame = s.metr.frameNow ∧ j.buf = s.metr.openBuf ∧
            j.deadline = at' + period s.metr.sweep ∧ j.fdone = 0) ∧
          u.metr.openBuf = otherBuf s.metr.openBuf ∧ ∀ c : Cl, u.core[c].frame = s.metr.frameNow) ∧
        (∀ c : Cl, u.core[c].g = s.core[c].g ∧ u.core[c].pc = s.core[c].pc) ∧
        s.changesOnly [.mem, .memc, .osti, .chord, .hdr, .core, .unis, .trk, .gov, .hub, .metr, .cres, .mirl] u ∧
        (s.noCopies → s.changesOnly [.memc, .hdr, .core, .unis, .trk, .gov, .hub, .metr, .cres, .mirl] u)) ∧
    (∀ v : Vc, s.boundaryAt ≠ none → s.metr.openAt ≠ none → s.metr.judged = none → s.unis.rejoin = false → s.mirl.soloPending = false →
      s.unis.alive.getLsbD v.val = true → s.unis.tacet.getLsbD v.val = false → s.probeComp v ≠ 0 → ∃ u, exec .frameBoundary s = .next u ∧
        u.unis.tacet.getLsbD v.val = true ∧ u.unis.alive.getLsbD v.val = false ∧ u.unis.out[v].cause = 4 ∧
        u.unis.out[v].comp = s.probeComp v) ∧
    (s.boundaryAt = none → exec .frameBoundary s = .next s) ∧
    (s.metr.openAt ≠ none → s.memc.injGo = false → ∃ u, exec .frameOpenFill s = .next u ∧
      (∀ i, i < 131072 → (∀ (t : TrkId), ∀ p ∈ s.trk[t].written, t.val * 8192 + p.1.toNat ≠ i) →
        u.cell ⟨.score s.metr.openBuf, i⟩ = missingCell) ∧
      (∀ (t : TrkId), ∀ p ∈ s.trk[t].written, u.cell ⟨.score s.metr.openBuf, t.val * 8192 + p.1.toNat⟩ =
        s.cell ⟨.score s.metr.openBuf, t.val * 8192 + p.1.toNat⟩) ∧
      (∀ m i, 16 * i < m.bytes → m ≠ .score s.metr.openBuf → u.cell ⟨m, i⟩ = s.cell ⟨m, i⟩) ∧ s.changesOnly [.mem, .osti] u) ∧
    (∃ u, exec .heartbeat s = .next u ∧ u.metr.hbAt = s.nextHeartbeat ∧
      u.gov.tokens = min s.gov.rate.toNat Config.rateCeiling ∧ u.gov.state = s.gov.state ∧ u.gov.epoch = s.gov.epoch ∧
      u.gov.epochHb = (if s.mirl.observer then 0 else s.gov.epoch) ∧
      u.metr.ltAdj = s.metr.ltAdj - BitVec.ofInt 32 (slewOf s.metr.ltAdj) ∧
      (s.metr.lineTime ≤ s.nextHeartbeat → u.metr.lineTime = s.nextHeartbeat + BitVec.ofInt 64 (slewOf s.metr.ltAdj)) ∧
      (∀ q : TrkId, s.trk[q].enable = true → s.trk[q].link = .up ∨ s.trk[q].link = .train → ∃ f, u.trk[q].out =
        [.hb s.metr.frameNow f (if s.trk[q].link = .train then 0 else u.gov.epochHb) (s.hbFlags q)]) ∧
      (∀ q : TrkId, s.sends q = false → u.trk[q].out = s.trk[q].out) ∧
      (∀ c : Cl, u.core[c].g = s.core[c].g ∧ u.core[c].pc = s.core[c].pc) ∧
      s.changesOnly [.hdr, .core, .unis, .trk, .gov, .hub, .metr, .mirl, .free] u ∧
      (s.noDeadline s.nextHeartbeat → s.changesOnly [.core, .trk, .gov, .metr, .mirl, .free] u)) ∧
    (∀ end_, s.metr.openAt ≠ none → s.boundaryAt = some end_ → ∃ u, exec .voicePreWake s = .next u ∧
      (∀ v : Vc, u.cres.booked.getLsbD v.val = (s.cres.booked.getLsbD v.val ||
        (s.unis.alive.getLsbD v.val && s.powerOf (rqVoice v) == .retain))) ∧
      (∀ v : Vc, s.unis.alive.getLsbD v.val = true → s.powerOf (rqVoice v) = .retain →
        rqVoice v ∈ u.cres.grants ∨ ∃ w ∈ u.cres.waiting, w.id = rqVoice v) ∧
      u.cres.grants = s.cres.grants ∧ s.changesOnly [.hdr, .core, .unis, .gov, .hub, .metr, .cres] u ∧
      (s.noDeadline (end_ - us 40) → s.changesOnly [.core, .metr, .cres] u)) ∧
    (∀ j, s.metr.judged = some j → s.noDeadline (j.deadline - us s.metr.warnLead.toNat) → ∃ u, exec .frameWarn s = .next u ∧
      (∀ v : Vc, u.core[vcl v].icuPend.getLsbD 12 = (s.core[vcl v].icuPend.getLsbD 12 ||
        (s.unis.alive.getLsbD v.val && s.unfinished.any (fun r => s.ownerOf r == v)))) ∧
      u.core[stw].icuPend = s.core[stw].icuPend ∧ u.metr.judged = s.metr.judged ∧
      (∀ c : Cl, u.core[c].g = s.core[c].g ∧ u.core[c].pc = s.core[c].pc) ∧
      s.changesOnly [.hdr, .core, .metr, .cres] u)

/-- CLOCK_MONITOR_WINDOW (R234) outside RC-only mode: a count beyond 2 % of 240 reports CLOCK and LINE_TIME falls back to the RC,
any other restores REF_OK. The lock loss of a PLL that runs reports CLOCK, a stopped PLL has no monitor (R233), its relock ends its own
report alone. A monitor's report ends an ARM cycle that was under way (R205). KICK and WDOG_KICK reload their
watchdogs; an expired watchdog that counts is reported and one that pauses is not (R153, R240). LT_STEP is taken in DISARMED with
every trunk DOWN and refused otherwise; a write of LT_ADJ wins over the slew of its cycle, with HWLOST (R13, R236).
Completes: clockMonitorWindow, pllLockLoss, pllRelock, kick, wdogKick, stwWdog, voiceWdog, ltStep, ltAdjWrite. -/
def Obligations.ClockAndWatchdogResults : Prop :=
  ∀ s : State,
    (∀ n : Nat, s.rcOnly = false → ∃ u, exec (.clockMonitorWindow n) s = .next u ∧ s.changesOnly [.aon, .metr, .hub] u ∧
      (n * 100 < 240 * 98 ∨ 240 * 102 < n * 100 → u.metr.refOk = false ∧ u.metr.rcFallback = true ∧
        u.hub.pending = s.hub.pending ++ [⟨.clock, 0, 0⟩]) ∧
      (240 * 98 ≤ n * 100 ∧ n * 100 ≤ 240 * 102 → u.metr.refOk = true ∧ u.metr.rcFallback = s.metr.rcFallback ∧ u.hub = s.hub) ∧
      u.aon.pllBad = s.aon.pllBad ∧ u.metr.lineTime = s.metr.lineTime) ∧
    (∀ p : Pll, (s.pllRuns p = false → exec (.pllLockLoss p) s = .next s) ∧
      (s.pllRuns p = true → ∃ u, exec (.pllLockLoss p) s = .next u ∧ u.aon.armCycle = false ∧ u.metr.rcFallback = true ∧ u.aon.pllBad.getLsbD (pllBit p) = true ∧
        u.hub.pending = s.hub.pending ++ [⟨.clock, 0, 0⟩] ∧ s.changesOnly [.aon, .metr, .hub] u) ∧
      (∃ u, exec (.pllRelock p) s = .next u ∧ u.aon.pllBad.getLsbD (pllBit p) = false ∧ s.changesOnly [.aon] u ∧
        ∀ j, j ≠ pllBit p → u.aon.pllBad.getLsbD j = s.aon.pllBad.getLsbD j)) ∧
    (s.stwCounts = true → (∃ u, exec .kick s = .next u ∧ u.metr.kickAt = s.metr.lineTime ∧
        s.changesOnly [.metr, .snaps] u) ∧
      (∃ u, exec .stwWdog s = .next u ∧ u.hub.pending.getLast? = some ⟨.stwWdog, 4, 0⟩ ∧
        s.changesOnly [.hdr, .core, .unis, .gov, .metr, .hub] u ∧ (s.noDeadline (s.metr.kickAt + s.metr.wdogPeriod) →
          u.hub.pending = s.hub.pending ++ [⟨.stwWdog, 4, 0⟩] ∧ s.changesOnly [.core, .metr, .hub] u))) ∧
    (s.stwCounts = false → exec .stwWdog s = .next s) ∧
    (∀ v : Vc, (s.voiceCounts v = true → s.unis.tacet.getLsbD v.val = false →
        (∃ u, exec (.wdogKick (vcl v)) s = .next u ∧ u.core[vcl v].wdogAt = s.metr.lineTime ∧ s.changesOnly [.core] u ∧
          ∀ d : Cl, d ≠ vcl v → u.core[d] = s.core[d]) ∧
        (∃ u, exec (.voiceWdog v) s = .next u ∧ u.hub.pending.getLast? = some ⟨.voiceWdog, BitVec.ofNat 4 v.val, 0⟩ ∧
          s.changesOnly [.hdr, .core, .unis, .gov, .metr, .hub] u ∧
          (s.noDeadline (s.core[vcl v].wdogAt + us s.core[vcl v].wdogLimit.toNat) →
            u.hub.pending = s.hub.pending ++ [⟨.voiceWdog, BitVec.ofNat 4 v.val, 0⟩] ∧ s.changesOnly [.core, .metr, .hub] u))) ∧
      (s.voiceCounts v = false → exec (.voiceWdog v) s = .next s)) ∧
    (s.gov.state = .disarmed → (∀ t : TrkId, s.trk[t].link = .down) → ∃ u, exec .ltStep s = .next u ∧
      u.metr.lineTime = s.metr.ltSet ∧ u.metr.stepRefused = s.metr.stepRefused ∧ u.mem = s.mem ∧ u.trk = s.trk ∧
      u.gov.state = s.gov.state ∧ u.cres.grants = s.cres.grants) ∧
    (s.gov.state ≠ .disarmed ∨ (∃ t : TrkId, s.trk[t].link ≠ .down) → ∃ u, exec .ltStep s = .next u ∧
      u.metr.stepRefused = true ∧ u.metr.lineTime = s.metr.lineTime ∧ s.changesOnly [.metr, .snaps] u) ∧
    (∀ (v : Word) (slewing : Bool), ∃ u, exec (.ltAdjWrite v slewing) s = .next u ∧ u.metr.ltAdj = v ∧
      u.metr.lineTime = s.metr.lineTime ∧ s.changesOnly [.metr, .hdr, .snaps] u ∧
      (∀ x ∈ u.snaps, x.init ≠ .steward ∨ x.blk ≠ blkMetr) ∧
      u.hdr[blkMetr].hwlost = (s.hdr[blkMetr].hwlost || slewing) ∧
      (slewing = true → u.hdr[blkMetr].hwlostSrc = 0x48) ∧ (slewing = false → u.hdr = s.hdr))

/-! ## Crescendo and the seasons (10) -/

/-- CRESCENDO_ARBITRATION (R247): releases are applied, every waiting request of the reserve is granted, no grant is taken away
that was not released, but BIST's under notice, which it gives back within the notice (R248; log 84), and the grants outside the
reserve stay within the budget less 100 PU. VOICE_SLEEP and BLOCK_WAKE (R242,
R243, R88, R241): a Voice with nothing to do enters RETAIN and gives its grant back; a block that holds its grant runs, with its
memory as it was from RETAIN and zero-filled from OFF; an enabled trunk that waited for it begins its bring-up. BLOCK_OFF loses a block's contents. SUMMER_ENTRY and DRAIN_COMPLETE
(Table 10-3, R244): SUMMER once every enabled trunk is UP or has failed; WINTER with the engines stopped and OFF, the frames ended, every
cached line given up, and clusters and slices in RETAIN or OFF.
Completes: crescendoArbitration, voiceSleep, blockWake, blockOff, summerEntry, drainComplete. -/
def Obligations.PowerAndSeasonResults : Prop :=
  ∀ s : State,
    (∃ u, exec .crescendoArbitration s = .next u ∧ u.cres.released = [] ∧
      (∀ w ∈ s.cres.waiting, reserved w.id = true → w.id ∈ u.cres.grants ∧ ∀ x ∈ u.cres.waiting, x.id ≠ w.id) ∧
      (∀ r ∈ s.cres.grants, r ∉ s.cres.released → (r = rqBist → r ∉ s.cres.noticed) → r ∈ u.cres.grants) ∧
      (∀ r ∈ u.cres.grants, r ∈ s.cres.grants ∨ ∃ w ∈ s.cres.waiting, w.id = r) ∧
      (s.usedPu ≤ s.openBudget → u.usedPu ≤ u.openBudget) ∧ (∀ w ∈ u.cres.waiting, u.bookedLater w = false → w.counted = true) ∧
      u.cres.power = s.cres.power ∧ u.cres.season = s.cres.season ∧ u.cres.budget = s.cres.budget ∧
      s.changesOnly [.hdr, .core, .unis, .gov, .hub, .metr, .cres] u ∧
      (s.noDeadline (laterMultiple Config.ticksPerUs s.metr.lineTime) → s.changesOnly [.core, .metr, .cres, .hdr] u)) ∧
    (∀ v : Vc, s.unis.alive.getLsbD v.val = true → s.idling v = true → s.core[vcl v].cueReady = 0 →
      s.core[vcl v].acceptable = none → (∀ r ∈ s.unfinished, s.ownerOf r ≠ v) →
      ∃ u, exec (.voiceSleep v) s = .next u ∧ u.powerOf (rqVoice v) = .retain ∧
        (∀ q, q ≠ rqVoice v → u.powerOf q = s.powerOf q) ∧ (rqVoice v ∈ s.cres.grants → rqVoice v ∈ u.cres.released) ∧
        (∀ w ∈ u.cres.waiting, w.id ≠ rqVoice v) ∧
        (∀ c : Cl, u.core[c].g = s.core[c].g ∧ u.core[c].v = s.core[c].v ∧ u.core[c].pc = s.core[c].pc) ∧
        s.changesOnly [.hdr, .core, .unis, .gov, .hub, .metr, .cres] u ∧
        (s.noDeadline (s.cres.idleAt[v] + us s.cres.sleepDelay.toNat) → s.changesOnly [.core, .metr, .cres] u)) ∧
    (∀ r : Fin 29, s.holds r = true → s.powerOf r = .retain ∨ s.powerOf r = .off →
      ∃ u, exec (.blockWake r) s = .next u ∧ u.powerOf r = .run ∧ (∀ q, q ≠ r → u.powerOf q = s.powerOf q) ∧
        u.cres.grants = s.cres.grants ∧ s.changesOnly [.mem, .memc, .osti, .chord, .core, .trk, .gov, .metr, .cres] u ∧
        (s.powerOf r = .retain → u.mem = s.mem ∧ u.chord = s.chord) ∧
        (∀ t : TrkId, r = rqTrk t → u.trk[t].link =
          (if s.trk[t].enable ∧ s.trk[t].link = .down ∧ s.trk[t].failed = false ∧ s.cres.season ≠ .winter then .train
            else s.trk[t].link)) ∧
        (∀ t : TrkId, r ≠ rqTrk t → u.trk[t] = s.trk[t]) ∧
        (∀ c : Cl, clOfRq r = some c → s.powerOf r = .off → s.memc.injGo = false →
          u.mem.itcm[c] = .empty ∧ u.mem.dtcm[c] = .empty ∧ u.chord.l1d[c] = []) ∧
        (∀ d : Cl, clOfRq r ≠ some d → s.memc.injGo = false → u.mem.itcm[d] = s.mem.itcm[d] ∧ u.mem.dtcm[d] = s.mem.dtcm[d])) ∧
    (∀ r : Fin 29, ∃ u, exec (.blockOff r) s = .next u ∧ u.powerOf r = .off ∧ (∀ q, q ≠ r → u.powerOf q = s.powerOf q) ∧
      (r ∈ s.cres.grants → r ∈ u.cres.released) ∧ s.changesOnly [.chord, .core, .metr, .cres] u ∧
      (∀ d : Cl, clOfRq r ≠ some d → u.core[d].g = s.core[d].g ∧ u.core[d].pc = s.core[d].pc ∧ u.chord.l1d[d] = s.chord.l1d[d]) ∧
      (∀ c : Cl, clOfRq r = some c → u.chord.l1d[c] = [] ∧ u.core[c].pc = 0x07000000)) ∧
    (s.seasonFree = true → s.cres.season = .spring →
      (∀ t : TrkId, s.trk[t].enable = true → s.trk[t].link = .up ∨ s.trk[t].failed = true ∨ s.trk[t].link = .tacet) →
      ∃ u, exec .summerEntry s = .next u ∧ u.cres.season = .summer ∧ u.cres.event.getLsbD 0 = true ∧
        u.cres.power = s.cres.power ∧ s.changesOnly [.cres] u) ∧
    (s.cres.season ≠ .spring → exec .summerEntry s = .next s) ∧
    (s.seasonFree = true → s.cres.season = .autumn → ∃ u, exec .drainComplete s = .next u ∧ u.cres.season = .winter ∧
      (∀ t : TrkId, u.trk[t].link = (if s.trk[t].link = .tacet then .tacet else .down)) ∧
      (∀ t : TrkId, u.powerOf (rqTrk t) = .off) ∧
      u.metr.openAt = none ∧ u.metr.judged = none ∧ (∀ c : Cl, u.chord.l1d[c] = []) ∧
      (∀ c : Cl, u.powerOf (rqCl c) = (if s.powerOf (rqCl c) = .off then .off else .retain)) ∧
      (∀ i : SliceId, u.powerOf (rqSlice i) = (if s.powerOf (rqSlice i) = .off then .off else .retain)) ∧
      (∀ c : Cl, u.core[c].g = s.core[c].g ∧ u.core[c].pc = s.core[c].pc) ∧
      u.aon = s.aon ∧ u.rst = s.rst ∧ u.hmbx = s.hmbx ∧ u.drunor = s.drunor ∧ u.mirl = s.mirl) ∧
    (s.cres.season ≠ .autumn → exec .drainComplete s = .next s)

/-! ## Ostinato, MEMC and the popped logs (04, 03, 08) -/

/-- OSTINATO_REGION_START (R98, R99, R100): under its grant a region is saved and every word still reads as before; a region that
sleeps is skipped and counted; without the grant it is asked for. OSTINATO_REGION_DONE and OSTINATO_ABORT: the region is restored, a
word with a correctable error repaired and one with an uncorrectable error poisoned, no other word changes (where no injection is armed,
R104); a failing word is
counted and reported; the march goes on to the next region, or after an abort gives the grant back and tests the region again.
OSTI_STALL reports while Ostinato is enabled (R101).
Completes: ostinatoRegionStart, ostinatoRegionDone, ostinatoAbort, ostiStall. -/
def Obligations.OstinatoKeepsMemory : Prop :=
  ∀ s : State,
    let inside (l : Loc) : Bool := (l.region.map Prod.fst) == some s.osti.region.toNat
    let repaired (u : State) : Prop := ∀ m i, 16 * i < m.bytes →
      u.cell ⟨m, i⟩ = (if inside ⟨m, i⟩ then restored (s.cell ⟨m, i⟩) else s.cell ⟨m, i⟩)
    (s.osti.enable = true → s.osti.save = none → s.regionSleeps s.osti.region.toNat = false → s.holds rqOsti = true →
      rqOsti ∉ s.cres.noticed → ∃ u, exec .ostinatoRegionStart s = .next u ∧ u.osti.save.isSome = true ∧
        u.osti.region = s.osti.region ∧ u.osti.startAt = u.metr.lineTime ∧
        (∀ m i, 16 * i < m.bytes → u.cell ⟨m, i⟩ = s.cell ⟨m, i⟩) ∧
        s.changesOnly [.memc, .osti, .hdr, .core, .unis, .gov, .hub, .metr] u ∧
        (s.noDeadline (s.osti.startAt + s.osti.period) → s.changesOnly [.memc, .osti, .hdr, .core, .hub, .metr] u)) ∧
    (s.osti.enable = true → s.osti.save = none → s.regionSleeps s.osti.region.toNat = true →
      ∃ u, exec .ostinatoRegionStart s = .next u ∧ getN u.osti.cnt 3 0 = getN s.osti.cnt 3 0 + 1 ∧ u.osti.save = none ∧
        (s.osti.region.toNat + 1 < 16080 → u.osti.region = s.osti.region + 1) ∧
        (s.osti.region.toNat + 1 = 16080 → u.osti.region = 0 ∧ getN u.osti.cnt 0 0 = getN s.osti.cnt 0 0 + 1) ∧
        s.changesOnly [.osti, .hdr, .core, .unis, .gov, .hub, .metr] u ∧
        (s.noDeadline (s.osti.startAt + s.osti.period) → s.changesOnly [.osti, .hdr, .core, .metr] u)) ∧
    (s.osti.enable = true → s.osti.save = none → s.regionSleeps s.osti.region.toNat = false → s.holds rqOsti = false →
      exec .ostinatoRegionStart s = .next (s.askGrant rqOsti)) ∧
    (∀ fails : BitVec 64, s.osti.save.isSome = true → ∃ u, exec (.ostinatoRegionDone fails) s = .next u ∧
      u.osti.save = none ∧ (s.memc.injGo = false → repaired u) ∧
      (s.osti.region.toNat + 1 < 16080 → u.osti.region = s.osti.region + 1) ∧
      (fails = 0 → u.hub = s.hub ∧ (s.memc.injGo = false → u.memc = s.memc) ∧ u.chord = s.chord ∧ getN u.osti.cnt 1 0 = getN s.osti.cnt 1 0) ∧
      (∀ j, j < 64 → fails = oneHot 64 j → getN u.osti.cnt 1 0 = getN s.osti.cnt 1 0 + 1 ∧
        ∃ d, (⟨.ostiMarch, 0, d⟩ : Report) ∈ u.hub.pending) ∧
      u.trk = s.trk ∧ u.unis = s.unis ∧ u.gov = s.gov ∧ u.metr = s.metr ∧ u.cres.grants = s.cres.grants) ∧
    (s.osti.save.isSome = true → rqOsti ∈ s.cres.noticed → ∃ u, exec .ostinatoAbort s = .next u ∧ u.osti.save = none ∧
      u.osti.retest = true ∧ u.osti.region = s.osti.region ∧ (s.memc.injGo = false → repaired u) ∧
      getN u.osti.cnt 2 0 = getN s.osti.cnt 2 0 + 1 ∧ (rqOsti ∈ s.cres.grants → rqOsti ∈ u.cres.released) ∧
      s.changesOnly [.mem, .memc, .osti, .hdr, .cres] u) ∧
    (s.osti.save = none → rqOsti ∈ s.cres.noticed → exec .ostinatoAbort s = .next (s.dropGrant rqOsti)) ∧
    (s.osti.enable = true → ∃ u, exec .ostiStall s = .next u ∧ u.hub.pending.getLast? = some ⟨.ostiStall, 0, 0⟩ ∧
      s.changesOnly [.hdr, .core, .unis, .gov, .hub, .metr] u ∧
      (s.noDeadline (s.osti.passStart + ms (1000 * s.osti.passLimit.toNat)) →
        u.hub.pending = s.hub.pending ++ [⟨.ostiStall, 0, 0⟩] ∧ s.changesOnly [.core, .hub, .metr] u)) ∧
    (s.osti.enable = false → exec .ostiStall s = .next s ∧ exec .ostinatoRegionStart s = .next s)

/-- MEMC_INJ_GO arms one injection (R104). CE_LOG_POP, UE_LOG_POP, URG_LOG_POP and LOST_LOG_POP: an initiator that may read the block
gets the oldest entry, or zero, and the entry leaves the log; any other gets a bus error and the log stays (R102, R76).
Completes: memcInjGo, ceLogPop, ueLogPop, urgLogPop, lostLogPop. -/
def Obligations.LogPopsReturnTheOldestEntry : Prop :=
  ∀ (i : Initiator) (t : TrkId) (s : State),
    (∃ u, exec .memcInjGo s = .next u ∧ u.memc = { s.memc with injGo := true } ∧ s.changesOnly [.memc, .snaps] u) ∧
    (s.mayRead i = true →
      (∃ u, exec (.ceLogPop i) s = .next u ∧ u.ans = ⟨s.memc.ceLog.entries.head?.getD 0, false, false, [], 0⟩ ∧
        u.memc = { s.memc with ceLog := s.memc.ceLog.pop } ∧ s.changesOnly [.memc, .snaps, .ans] u) ∧
      (∃ u, exec (.ueLogPop i) s = .next u ∧ u.ans = ⟨s.memc.ueLog.entries.head?.getD 0, false, false, [], 0⟩ ∧
        u.memc = { s.memc with ueLog := s.memc.ueLog.pop } ∧ s.changesOnly [.memc, .snaps, .ans] u) ∧
      (∃ u, exec (.urgLogPop t i) s = .next u ∧ u.ans = ⟨s.trk[t].urgLog.entries.head?.getD 0, false, false, [], 0⟩ ∧
        u.trk[t] = { s.trk[t] with urgLog := s.trk[t].urgLog.pop } ∧ (∀ q : TrkId, q ≠ t → u.trk[q] = s.trk[q]) ∧
        s.changesOnly [.trk, .snaps, .ans] u) ∧
      (∃ u, exec (.lostLogPop i) s = .next u ∧ u.ans = ⟨s.chord.lostLog.entries.head?.getD 0, false, false, [], 0⟩ ∧
        u.chord = { s.chord with lostLog := s.chord.lostLog.pop } ∧ s.changesOnly [.chord, .snaps, .ans] u)) ∧
    (s.mayRead i = false → ∀ c ∈ [Instr.ceLogPop i, .ueLogPop i, .urgLogPop t i, .lostLogPop i],
      exec c s = .next (s.answer 0 false true))

/-! ## Unison, plans and the Steward (05) -/

/-- A Voice goes out (R107, R108, R110, R125, R172, R217): by UNISON_MISMATCH with the cause and report of the row of Table 05-3 that
the codes of its two comparators give, by OUT_REQ with cause REQUEST and no report. It is in TACET and no longer alive, its held egress
and its staged words are gone, its agent is dead for Chord and no request of it waits at a home, every other cluster that is not
isolated takes VOICE_OUT, and a plan waits if it was alive. COMP names the comparators that do not see agreement and SEGMENT the lowest
segment in which one sees a difference. Where both codes are agreement the Voice stays: so do two equal bundles under two comparators
without fault.
Completes: unisonMismatch, outReq. -/
def Obligations.VoiceOutResults : Prop :=
  ∀ (v : Vc) (una unb : Comparator) (cores : BundlePair) (s : State),
    let out (u : State) (cause : BitVec 3) : Prop :=
      u.unis.tacet.getLsbD v.val = true ∧ u.unis.alive.getLsbD v.val = false ∧ u.unis.out[v].cause = cause ∧
      (∀ w : Vc, w ≠ v → u.unis.alive.getLsbD w.val = s.unis.alive.getLsbD w.val ∧ u.unis.out[w] = s.unis.out[w] ∧
        u.unis.tacet.getLsbD w.val = s.unis.tacet.getLsbD w.val ∧ u.gov.staged[vcl w] = s.gov.staged[vcl w] ∧
        u.core[vcl w].egress = s.core[vcl w].egress) ∧
      u.unis.planPending = (s.unis.planPending || s.unis.alive.getLsbD v.val) ∧
      u.core[vcl v].egress = [] ∧ u.gov.staged[vcl v] = [] ∧ u.chord.dead.getLsbD v.val = true ∧
      u.chord.wrapped.getLsbD v.val = true ∧ u.chord.reclaiming.getLsbD v.val = true ∧ u.unis.event.getLsbD v.val = true ∧
      (∀ k l w, k ≠ .retireDirty → k ≠ .retireClean → CohMsg.ask k (agentOf (vcl v)) l w ∉ u.chord.net) ∧
      (∀ d : Cl, d ≠ vcl v → s.isolated d = false → u.core[d].icuPend.getLsbD 10 = true) ∧
      getN u.gov.cnt 9 0 = getN s.gov.cnt 9 0 + BitVec.ofNat 32 s.gov.staged[vcl v].length ∧
      (∀ d : Cl, u.core[d].g = s.core[d].g ∧ u.core[d].pc = s.core[d].pc) ∧
      s.changesOnly [.snaps, .hdr, .chord, .core, .unis, .gov, .cres, .hub, .drunor, .mirl, .free] u
    let a := railCode una (bundleDiff cores)
    let b := railCode unb (bundleDiff cores)
    let mismatch := exec (.unisonMismatch v una unb cores) s
    let seen (u : State) : Prop := u.unis.out[v].comp = bit (b != 1) ++ bit (a != 1) ∧
      ∀ k, lowestSegment (seenDiff una (bundleDiff cores) ||| seenDiff unb (bundleDiff cores)) = some k → u.unis.out[v].segment = k
    let bad (x : BitVec 2) : Bool := x == 0 || x == 3
    (a = 1 → b = 1 → mismatch = .next (s.seeComparators v una unb)) ∧
    (cores.lead = cores.trail → una = ⟨0, 0, none⟩ → unb = una → mismatch = .next (s.seeComparators v una unb)) ∧
    (s.unis.tacet.getLsbD v.val = false →
      (a = 2 → b = 2 → ∃ u, mismatch = .next u ∧ out u 1 ∧ seen u ∧
        u.hub.pending = s.hub.pending ++ [⟨.lockstep, BitVec.ofNat 4 v.val, 0⟩]) ∧
      (bad a = false → bad b = false → a ≠ b → ∃ u, mismatch = .next u ∧ out u 2 ∧ seen u ∧
        u.unis.event.getLsbD 4 = true ∧ u.hub.pending = s.hub.pending ++ [⟨.unisonSplit, BitVec.ofNat 4 v.val, 0⟩]) ∧
      ((bad a || bad b) = true → ∃ u, mismatch = .next u ∧ out u 3 ∧ seen u ∧
        u.unis.event.getLsbD 5 = true ∧ u.hub.pending = s.hub.pending ++ [⟨.unisonRail, BitVec.ofNat 4 v.val, 0⟩]) ∧
      (s.unis.outV = v → ∃ u, exec .outReq s = .next u ∧ out u 6 ∧ u.hub = s.hub)) ∧
    (s.unis.tacet.getLsbD v.val = true → mismatch = .next (s.seeComparators v una unb) ∧
      (s.unis.outV = v → exec .outReq s = .next (s.stewWrite blkUnis)))

/-- PLAN_APPLY (R121, R123): the plan of the live mask gives the ranges their owners; a range of the judged frame that its lost Voice had
not finished is re-homed, unless its trunk is shed; a newly shed trunk trips. An invalid plan or an empty mask means FERMATA. REJOIN
(R126, R279) is taken up for a Voice that may return, held while another waits for its boundary (R14), refused and counted otherwise,
ignored for a Voice that is not live.
Completes: planApply, rejoin. -/
def Obligations.PlanAndRejoinResults : Prop :=
  ∀ s : State, let m := s.unis.alive; let p := s.planOf m; let v := s.unis.rejoinV
    (s.unis.planPending = true → m ≠ 0 → p.valid = true → ∃ u, exec .planApply s = .next u ∧
      u.unis.owner = p.owners ∧ u.unis.planMask = m ∧ u.unis.planSweep = p.sweep ∧ u.unis.planShed = p.shed ∧
      u.unis.planPending = false ∧ u.unis.alive = m ∧ u.unis.event.getLsbD 9 = true ∧ getN u.unis.cnt 2 0 = getN s.unis.cnt 2 0 + 1 ∧
      (∀ r ∈ s.unfinished, m.getLsbD (s.ownerOf r).val = false → p.shed.getLsbD (rangeTrunk (s.rangeEntry r)).val = false →
        u.unis.rehome[u.ownerOf r].getLsbD r.toNat = true ∧ u.core[vcl (u.ownerOf r)].icuPend.getLsbD 11 = true) ∧
      (∀ t : TrkId, p.shed.getLsbD t.val = true → s.unis.planShed.getLsbD t.val = false →
        u.gov.zoneTrip.getLsbD t.val = true ∧ u.trk[t].veto = true) ∧
      (∀ t : TrkId, u.trk[t].link = s.trk[t].link) ∧ u.gov.state = s.gov.state ∧ u.gov.epoch = s.gov.epoch ∧
      s.changesOnly [.hdr, .core, .unis, .trk, .gov, .metr, .cres, .mirl] u) ∧
    (s.unis.planPending = true → m = 0 ∨ p.valid = false → ∃ u, exec .planApply s = .next u ∧ u.gov.state = .fermata ∧
      u.unis.planPending = false ∧ u.unis.owner = s.unis.owner ∧ u.mem = s.mem) ∧
    (s.unis.planPending = false → exec .planApply s = .next s) ∧
    (s.unis.notLive.getLsbD v.val = true → exec .rejoin s = .next (s.stewWrite blkUnis)) ∧
    (s.unis.notLive.getLsbD v.val = false → s.mayRejoin v = true → ∃ u, exec .rejoin s = .next u ∧
      u.unis = (if s.unis.rejoin then { s.unis with rejoinHeld := some v } else { s.unis with rejoin := true, rejoinOf := v }) ∧
      s.changesOnly [.unis, .snaps] u) ∧
    (s.unis.notLive.getLsbD v.val = false → s.mayRejoin v = false → ∃ u, exec .rejoin s = .next u ∧
      u.unis.rejoin = s.unis.rejoin ∧ getN u.unis.cnt 3 0 = getN s.unis.cnt 3 0 + 1 ∧ s.changesOnly [.unis, .hdr, .snaps] u)

/-- The Steward's voting (R113 to R117): a core that differs is masked, counted and reported, its third masking is reported as degraded
too; STW_RESYNC ends the masking; its timeout asks for a Steward L3; a voter fault and a dual pair's mismatch are reported, as is a
Steward that has not returned; STEWARD_RETURN makes the Steward's agent live again and Drunor runs.
Completes: stwVote, stwResync, stwResyncTimeout, stwVoter, stwDual, stwLost, stewardReturn. -/
def Obligations.StewardVotingResults : Prop :=
  ∀ s : State,
    (∀ odd : Fin 3, s.core[stw].inReset = false → s.unis.stwMasked = 0 → ∃ u, exec (.stwVote odd) s = .next u ∧
      u.unis.stwMasked = oneHot 3 odd.val ∧ u.unis.stwMaskNum[odd] = s.unis.stwMaskNum[odd] + 1 ∧
      getN u.unis.cnt 1 0 = getN s.unis.cnt 1 0 + 1 ∧ u.unis.stwMaskedAt = s.metr.lineTime ∧
      u.hub.pending = s.hub.pending ++ ⟨.stwVote, 4, 0⟩ ::
        (if 2 ≤ s.unis.stwMaskNum[odd] then [⟨.stwDegraded, 4, 0⟩] else []) ∧
      s.changesOnly [.unis, .hdr, .core, .cres, .hub] u) ∧
    (∀ odd : Fin 3, s.unis.stwMasked ≠ 0 → exec (.stwVote odd) s = .next s) ∧
    (s.unis.stwMasked ≠ 0 → s.unis.stwDegraded = false → (s.core[stw].inReset = false → ∃ u, exec .stwResync s = .next u ∧
        u.unis.stwMasked = 0 ∧ u.unis.event.getLsbD 8 = true ∧ s.changesOnly [.unis, .core, .cres] u) ∧
      (s.rst.seq = none → s.rst.optionHold = false → s.reach 7 = none → ∃ u, exec .stwResyncTimeout s = .next u ∧
        u.rst.requests = s.rst.requests ++ [⟨7, .l3, 4, false⟩] ∧
        s.changesOnly [.hdr, .core, .unis, .gov, .hub, .metr, .rst] u ∧
        (s.noDeadline (s.unis.stwMaskedAt + ms 2) → s.changesOnly [.core, .metr, .rst] u))) ∧
    (∃ u, exec .stwVoter s = .next u ∧ u.hub.pending = s.hub.pending ++ [⟨.stwVoter, 4, 0⟩] ∧ s.changesOnly [.hub] u) ∧
    (s.unis.stwMasked ≠ 0 → ∃ u, exec .stwDual s = .next u ∧ u.hub.pending = s.hub.pending ++ [⟨.stwDual, 4, 0⟩] ∧
      s.changesOnly [.hub] u) ∧
    (∀ t, s.unis.stwAway = some t → (∃ u, exec .stwLost s = .next u ∧ u.unis.stwAway = none ∧
        u.hub.pending.getLast? = some ⟨.stwLost, 4, 0⟩ ∧ s.changesOnly [.hdr, .core, .unis, .gov, .hub, .metr] u ∧
        (s.noDeadline (t + ms 250) → u.hub.pending = s.hub.pending ++ [⟨.stwLost, 4, 0⟩] ∧
          s.changesOnly [.core, .unis, .metr, .hub] u)) ∧
      (s.core[stw].inReset = false → s.chord.reclaiming.getLsbD 4 = false → ∃ u, exec .stewardReturn s = .next u ∧
        u.unis.stwAway = none ∧ u.chord.wrapped.getLsbD 4 = false ∧ u.rst.drunor = true ∧
        s.changesOnly [.unis, .chord, .rst, .hmbx] u)) ∧
    (s.unis.stwAway = none → exec .stwLost s = .next s ∧ exec .stewardReturn s = .next s)

/-! ## Trunk engines (03) -/

/-- Bring-up and link faults (Table 03-2, R49, R241, Table 03-10): ENABLE trains a populated trunk that is DOWN, outside WINTER, once
its engine is in RUN, for which it asks; at lock it enters DISCOVER and sends DISC, without lock it fails; DISC_END with a right CRC
brings it UP, and a COUNT other than CONC_EXPECT is reported; DISC is repeated up to three times and then fails; RELINK trains again
while the zone is low, and one written while another runs is held (R14). A link that goes down relocks, and one that is lost takes its
veto and its zone drops. Each changes its own trunk only.
Completes: trkEnable, uplinkLock, discEnd, discTimeout, trkRelink, trkLinkDown, trkRelock, trkLinkLost. -/
def Obligations.TrunkBringUpResults : Prop :=
  ∀ (t : TrkId) (s : State),
    let k := s.trk[t]
    let others (u : State) (ps : List Part) : Prop := (∀ q : TrkId, q ≠ t → u.trk[q] = s.trk[q]) ∧ s.changesOnly ps u
    let fails (i : Instr) : Prop := ∃ u, exec i s = .next u ∧ u.trk[t].link = .down ∧ u.trk[t].failed = true ∧
      u.trk[t].linkq = [] ∧ u.trk[t].event.getLsbD 2 = true ∧
      u.hub.pending = s.hub.pending ++ [⟨.discFail, BitVec.ofNat 4 t.val, 0⟩] ∧
      u.gov.zone.getLsbD t.val = false ∧ others u [.trk, .core, .cres, .gov, .hub]
    let trains (u : State) : Prop :=
      (s.cres.season = .winter → u.trk[t].link = .down) ∧
      (s.cres.season ≠ .winter → s.powerOf (rqTrk t) = .run → u.trk[t].link = .train) ∧
      (s.cres.season ≠ .winter → s.powerOf (rqTrk t) ≠ .run → u.trk[t].link = .down ∧
        (u.holds (rqTrk t) = true ∨ ∃ w ∈ u.cres.waiting, w.id = rqTrk t)) ∧
      u.trk[t].failed = false ∧ u.trk[t].linkq = [] ∧ others u [.trk, .cres, .gov, .snaps]
    (s.populated t = true → k.enable = false → k.link = .down → ∃ u, exec (.trkEnable t) s = .next u ∧
      u.trk[t].enable = true ∧ trains u) ∧
    (s.populated t = false ∨ k.enable = true → exec (.trkEnable t) s = .next (s.stewWrite (blkTrk t))) ∧
    (k.link = .train → (∀ b, b = true ∨ s.looped t = true → ∃ u, exec (.uplinkLock t b) s = .next u ∧
        u.trk[t].link = .discover ∧ u.trk[t].linkq = k.linkq ++ [.disc 0] ∧ u.trk[t].discs = k.discs + 1 ∧ others u [.trk]) ∧
      (s.looped t = false → k.relinkHeld = false → fails (.uplinkLock t false))) ∧
    (k.link ≠ .train → ∀ b, exec (.uplinkLock t b) s = .next s) ∧
    (∀ (count : Byte) (crc : BitVec 16), crc16 [0x45, count, 0] = crc → k.link = .discover → s.looped t = false →
      k.relinkHeld = false →
      ∃ u, exec (.discEnd t count crc false) s = .next u ∧ u.trk[t].link = .up ∧ u.trk[t].concFound = count.setWidth 6 ∧
        u.gov.trainedSince.getLsbD t.val = true ∧ u.trk[t].relink = false ∧
        (count.toNat = k.concExpect.toNat → u.hub = s.hub ∧ u.trk[t].event = k.event) ∧
        (count.toNat ≠ k.concExpect.toNat → u.trk[t].event.getLsbD 1 = true ∧
          u.hub.pending = s.hub.pending ++ [⟨.discMismatch, BitVec.ofNat 4 t.val, count.setWidth 32⟩]) ∧
        others u [.trk, .core, .cres, .gov, .hub]) ∧
    (∀ (count : Byte) (crc : BitVec 16) (viol : Bool),
      crc16 [0x45, count, 0] ≠ crc ∨ viol = true ∨ k.link ≠ .discover ∨ s.looped t = true →
      exec (.discEnd t count crc viol) s = .next s) ∧
    (k.link = .discover → (k.discs < 4 → ∃ u, exec (.discTimeout t) s = .next u ∧ u.trk[t].linkq = k.linkq ++ [.disc 0] ∧
        u.trk[t].link = .discover ∧ u.trk[t].discs = k.discs + 1 ∧ others u [.trk]) ∧
      (4 ≤ k.discs → k.relinkHeld = false → fails (.discTimeout t))) ∧
    (k.link ≠ .discover → exec (.discTimeout t) s = .next s) ∧
    (s.populated t = true → s.gov.zone.getLsbD t.val = false → k.enable = true → k.link ≠ .tacet →
      (k.relink = false → ∃ u, exec (.trkRelink t) s = .next u ∧ u.trk[t].relink = true ∧ u.trk[t].concLost = 0 ∧ trains u) ∧
      (k.relink = true → ∃ u, exec (.trkRelink t) s = .next u ∧ u.trk[t] = { k with relinkHeld := true } ∧
        others u [.trk, .snaps])) ∧
    (s.gov.zone.getLsbD t.val = true ∨ k.enable = false → exec (.trkRelink t) s = .next (s.stewWrite (blkTrk t))) ∧
    (k.link = .up → k.relocking = false → s.looped t = false → ∃ u, exec (.trkLinkDown t) s = .next u ∧ u.trk[t].link = .up ∧
      u.trk[t].relocking = true ∧ u.trk[t].burst = none ∧ u.trk[t].event.getLsbD 0 = true ∧
      u.hub.pending = s.hub.pending ++ [⟨.trkLinkDown, BitVec.ofNat 4 t.val, 0⟩] ∧ others u [.trk, .core, .cres, .hub]) ∧
    (k.relocking = true →
      (∃ u, exec (.trkRelock t) s = .next u ∧ u.trk[t] = { k with relocking := false } ∧ others u [.trk]) ∧
      (∃ u, exec (.trkLinkLost t) s = .next u ∧ u.trk[t].link = .down ∧ u.trk[t].veto = true ∧ u.trk[t].linkq = [] ∧
        u.gov.zone.getLsbD t.val = false ∧ u.hub.pending = s.hub.pending ++ [⟨.trkLinkLost, BitVec.ofNat 4 t.val, 0⟩] ∧
        others u [.trk, .gov, .hub])) ∧
    (k.relocking = false → exec (.trkRelock t) s = .next s ∧ exec (.trkLinkLost t) s = .next s)

/-- BURST_HEADER, BURST_END, RETRY_POINT and CACK complete in every state of a trunk that takes uplink data (R56, R58, R66): a good
header starts its burst and acknowledges CMD_SEQ, a bad one is counted; a burst that ends with its CRC-32C is taken, another is counted
and answered by a NAK of its sequence, at most MAX_NAK in a frame; the retry point comes RETRY_RES before the seal and NAKs every
present concentrator without a LAST burst; a CACK with a right CRC acknowledges and one with a wrong CRC was never sent. A trunk that
takes no uplink data is left alone.
Completes: burstHeader, burstEnd, retryPoint, cack. -/
def Obligations.BurstResults : Prop :=
  ∀ (t : TrkId) (s : State),
    let k := s.trk[t]
    let conc (c : BitVec 5) := getN k.conc c.toNat .reset
    let firstNak (c : BitVec 5) (b : Byte) : Prop :=
      s.metr.openAt.isSome = true ∧ k.maxNak ≠ 0 ∧ ∀ p ∈ (conc c).naks, p.1 ≠ b
    let frame : Byte := s.metr.frameNow.setWidth 8
    let others (u : State) (ps : List Part) : Prop := (∀ q : TrkId, q ≠ t → u.trk[q] = s.trk[q]) ∧ s.changesOnly ps u
    (∀ (h : BitVec 64) (crc : BitVec 16), s.receiving t = true →
      let c := hdrConc h
      let good := crc16 (bytesOf 8 h) = crc ∧ (hdrCount h).toNat ≤ 64 ∧ (hdrFirst h).toNat + (hdrCount h).toNat ≤ 256
      (good → ∃ u, exec (.burstHeader t h crc) s = .next u ∧
        (∃ b, u.trk[t].burst = some b ∧ b.hdr = h ∧ b.pos = 0 ∧ b.viol = false) ∧
        (getN u.trk[t].conc c.toNat .reset).win = ackWindow (conc c).win (hdrCmdSeq h) ∧
        (hdrFrame h = s.metr.frameNow → (conc c).nextBseq < hdrBseq h → firstNak c (conc c).nextBseq →
          u.trk[t].linkq = k.linkq ++ [.nak c (conc c).nextBseq frame 2]) ∧
        (hdrBseq h ≤ (conc c).nextBseq → u.trk[t].linkq = k.linkq) ∧ u.trk[t].written = k.written ∧ others u [.trk, .hdr]) ∧
      (¬ good → ∃ u, exec (.burstHeader t h crc) s = .next u ∧ u.trk[t].burst = none ∧
        getN u.trk[t].cnt 3 0 = getN k.cnt 3 0 + 1 ∧ u.trk[t].linkq = k.linkq ∧ others u [.trk, .hdr])) ∧
    (s.receiving t = false → (∀ h crc, exec (.burstHeader t h crc) s = .next s) ∧
      ∀ crc viol, exec (.burstEnd t crc viol) s = .next s) ∧
    (∀ (b : Burst) (crc : Word) (viol : Bool), k.burst = some b → s.receiving t = true →
      let c := hdrConc b.hdr
      ∃ u, exec (.burstEnd t crc viol) s = .next u ∧ u.trk[t].burst = none ∧ others u [.trk, .hdr] ∧
        (crc = ~~~ b.crc → b.viol = false → viol = false → u.trk[t] = { k with burst := none }) ∧
        (crc ≠ ~~~ b.crc → getN u.trk[t].cnt 2 0 = getN k.cnt 2 0 + 1) ∧
        ((crc ≠ ~~~ b.crc ∨ b.viol = true ∨ viol = true) → hdrFrame b.hdr = s.metr.frameNow → firstNak c (hdrBseq b.hdr) →
          u.trk[t].linkq = k.linkq ++ [.nak c (hdrBseq b.hdr) frame (if b.viol || viol then 4 else 1)])) ∧
    (∀ end_, s.metr.openAt.isSome = true → s.boundaryAt = some end_ → ∃ u, exec (.retryPoint t) s = .next u ∧
      others u [.trk, .hdr, .core, .unis, .gov, .hub, .metr] ∧
      (s.noDeadline (end_ - BitVec.ofNat 64 (s.retryLead t)) → s.changesOnly [.trk, .hdr, .core, .metr] u) ∧
      (k.link = .up → ∀ c : BitVec 5, s.present t c = true → (conc c).lastSeen = false → firstNak c (conc c).nextBseq →
        DownSet.nak c (conc c).nextBseq frame 3 ∈ u.trk[t].linkq) ∧
      (k.link ≠ .up ∨ (∀ c : BitVec 5, s.present t c = true → (conc c).lastSeen = true) → u.trk = s.trk)) ∧
    (s.metr.openAt = none → exec (.retryPoint t) s = .next s) ∧
    (∀ (c seq seqB status : Byte) (crc : BitVec 16), crc16 [0x41, c, seq, seqB, status] = crc → k.link = .up → c.toNat < 32 →
      s.looped t = false → ∃ u, exec (.cack t c seq seqB status crc false) s = .next u ∧ others u [.trk] ∧
        (getN u.trk[t].conc c.toNat .reset).win = ackWindow (getN k.conc c.toNat .reset).win seq ∧
        (∀ j, j < 32 → j ≠ c.toNat → getN u.trk[t].conc j .reset = getN k.conc j .reset) ∧
        (∀ x ∈ u.trk[t].winB, ∃ y ∈ k.winB, x.word = y.word)) ∧
    (∀ (c seq seqB status : Byte) (crc : BitVec 16) (viol : Bool),
      crc16 [0x41, c, seq, seqB, status] ≠ crc ∨ viol = true ∨ k.link ≠ .up → exec (.cack t c seq seqB status crc viol) s = .next s)

/-- RECORD_ARRIVAL through the checks of Table 03-6 (R54, R55, R60, R61): a good record is stored in its slot of the open buffer, and
nowhere else, and counted; a record with a code violation, a wrong CRC, a wrong route, a late frame, a slot written before is counted
under its own counter and stores nothing. A record that fires the Sentinel is reported and queues a DE-ENERGIZE of its channel. A
route entry that the engine has not cached is read from Chord first; read clean, with no copy in any cache, that changes nothing else.
Completes: recordArrival. -/
def Obligations.RecordArrivalResults : Prop :=
  ∀ (t : TrkId) (b : Burst) (rec : Native) (s : State), s.trk[t].burst = some b → s.receiving t = true →
    b.pos < (hdrCount b.hdr).toNat →
    let c := hdrConc b.hdr
    let ch := channelId t c (recSlot rec)
    let key : BitVec 13 := BitVec.ofNat 13 (c.toNat * 256 + (recSlot rec).toNat)
    let e := s.routeEntry t c
    let causes := sentinelCauses s.trk[t] (field e (4 * ((recSlot rec).toNat / 16)) 4) rec
    let routed := recCrcOk rec = true ∧ e.getLsbD 64 = true ∧ (recSlot rec).toNat = (hdrFirst b.hdr).toNat + b.pos
    let timely := s.metr.openAt.isSome = true ∧ hdrFrame b.hdr = s.metr.frameNow
    let known := (getN s.trk[t].route c.toNat none).isSome = true ∨ (s.noCopies ∧
      (s.cell ⟨.chord, (s.trk[t].routeBase.toNat * 512 + 16 * c.toNat - 0x10000000) / 16⟩).syn = 0)
    let counts (viol : Bool) (n : Nat) : Prop := ∃ u, exec (.recordArrival t rec viol) s = .next u ∧
      getN u.trk[t].cnt n 0 = getN s.trk[t].cnt n 0 + 1 ∧ (known → u.mem = s.mem ∧ u.osti = s.osti) ∧
      u.trk[t].rxRec = s.trk[t].rxRec ∧ u.trk[t].written = s.trk[t].written ∧ ∀ q : TrkId, q ≠ t → u.trk[q] = s.trk[q]
    counts true 0 ∧
    (recCrcOk rec = false → counts false 1) ∧
    (recCrcOk rec = true → ¬ routed → counts false 8) ∧
    (routed → ¬ timely → counts false 7) ∧
    (routed → timely → ∀ p, s.trk[t].written.find? (fun p => p.1 == key) = some p →
      counts false (if p.2 = recSeq rec then 5 else 6)) ∧
    (routed → timely → (∀ p ∈ s.trk[t].written, p.1 ≠ key) → s.memc.injGo = false → known →
      ∃ u, exec (.recordArrival t rec false) s = .next u ∧
        u.cell ⟨.score s.metr.openBuf, ch⟩ = ⟨rec, 0⟩ ∧
        (∀ m i, 16 * i < m.bytes → (m = .score s.metr.openBuf → i ≠ ch) → u.cell ⟨m, i⟩ = s.cell ⟨m, i⟩) ∧
        u.trk[t].rxRec = s.trk[t].rxRec + 1 ∧ u.trk[t].written = (key, recSeq rec) :: s.trk[t].written ∧
        (∃ b', u.trk[t].burst = some b' ∧ b'.hdr = b.hdr ∧ b'.pos = b.pos + 1 ∧ b'.crc = crc32cRun b.crc (bytesOf 16 rec)) ∧
        (causes = 0 → u.trk[t].txq = s.trk[t].txq ∧ u.trk[t].urgLog = s.trk[t].urgLog ∧ u.hub = s.hub) ∧
        (causes ≠ 0 → u.hub.pending = s.hub.pending ++ [⟨.sentinelTrip, BitVec.ofNat 4 t.val, BitVec.ofNat 32 ch⟩]) ∧
        (causes ≠ 0 → (getN s.trk[t].conc c.toNat .reset).coalesced = false → s.trk[t].queuedIn .urgent < 16 →
          ∃ w, u.trk[t].txq = s.trk[t].txq ++ [w] ∧ w.cls = .urgent ∧ cmdOpcode w.word = .deEnergize ∧
            cmdSlot w.word = recSlot rec ∧ cmdConc w.word = c ∧ cmdHw w.word = true) ∧
        (∀ q : TrkId, q ≠ t → u.trk[q] = s.trk[q]) ∧ u.gov.state = s.gov.state ∧ u.chord = s.chord)

/-- COMMAND_TRANSMIT and CMD_ACK_TIMEOUT complete in every state (R25, R45, R65 to R68, R213): of an engine whose downlink runs, the
first queued word of the highest class leaves with the next sequence of its concentrator and its CRC-16 and joins the window; with
nothing to send, and always in TRAIN, IDLE leaves, in DISCOVER nothing but link control; an engine whose downlink does not run
sends nothing; a read-back mismatch is reported. A window not acknowledged is sent again, the fourth time the concentrator is lost
with its outstanding words.
Completes: commandTransmit, cmdAckTimeout. -/
def Obligations.DownlinkResults : Prop :=
  ∀ (t : TrkId) (s : State),
    let k := s.trk[t]
    let win (c : BitVec 5) := (getN k.conc c.toNat .reset).win
    let quiet := (∀ x ∈ k.winB, x.resend = false) ∧ ∀ c : BitVec 5, ∀ x ∈ win c, x.resend = false
    let others (u : State) (ps : List Part) : Prop := (∀ q : TrkId, q ≠ t → u.trk[q] = s.trk[q]) ∧ s.changesOnly ps u
    (∀ (w : TxWord) (rest : List TxWord), k.enable = true → k.link = .up → quiet → k.txq = w :: rest → cmdAll w.word = false →
      (win (cmdConc w.word)).length < 64 →
      (w.cls = .urgent ∨ (w.cls = .protective ∧ ∀ x ∈ rest, x.cls ≠ .urgent) ∨
        (w.cls = .other ∧ k.linkq = [] ∧ ∀ x ∈ rest, x.cls = .other)) →
      let seq := (getN k.conc (cmdConc w.word).toNat .reset).nextSeq
      let x := sealWord w.word seq
      (∃ u, exec (.commandTransmit t true) s = .next u ∧ u.trk[t].out = [.cmd x] ∧ u.trk[t].txq = rest ∧
        (getN u.trk[t].conc (cmdConc w.word).toNat .reset).nextSeq = seq + 1 ∧
        (getN u.trk[t].conc (cmdConc w.word).toNat .reset).win = win (cmdConc w.word) ++ [⟨x, w.cls, 0, false, 0⟩] ∧
        u.trk[t].txCmd = k.txCmd + 1 ∧ u.trk[t].linkq = k.linkq ∧ others u [.trk, .hdr]) ∧
      (∃ u, exec (.commandTransmit t false) s = .next u ∧ u.trk[t].out = [.cmd x] ∧ u.trk[t].event.getLsbD 9 = true ∧
        u.hub.pending = s.hub.pending ++ [⟨.trkEngine, BitVec.ofNat 4 t.val, 0⟩])) ∧
    (∀ b, k.enable = true → k.link = .train ∨ (k.link = .discover ∧ k.linkq = []) ∨
        (k.link = .up ∧ quiet ∧ k.txq = [] ∧ k.linkq = []) →
      ∃ u, exec (.commandTransmit t b) s = .next u ∧ u.trk[t] = { k with out := [.idle] } ∧ others u [.trk]) ∧
    (∀ b d rest, k.enable = true → k.link = .discover ∨ (k.link = .up ∧ quiet ∧ k.txq = []) → k.linkq = d :: rest →
      (∀ w, d ≠ .cmd w) →
      ∃ u, exec (.commandTransmit t b) s = .next u ∧ u.trk[t] = { k with out := [d], linkq := rest } ∧ others u [.trk]) ∧
    (∀ b, s.sends t = false → exec (.commandTransmit t b) s = .next s) ∧
    (∀ (c : BitVec 5) (x : Unacked) (rest : List Unacked), win c = x :: rest →
      (x.retries < 3 → ∃ u, exec (.cmdAckTimeout t c false) s = .next u ∧
        (getN u.trk[t].conc c.toNat .reset).win = (x :: rest).map again ∧
        getN u.trk[t].cnt 10 0 = getN k.cnt 10 0 + BitVec.ofNat 32 (rest.length + 1) ∧ others u [.trk, .hdr]) ∧
      (3 ≤ x.retries → ∃ u, exec (.cmdAckTimeout t c false) s = .next u ∧ (getN u.trk[t].conc c.toNat .reset).win = [] ∧
        u.trk[t].concLost.getLsbD c.toNat = true ∧
        u.hub.pending = s.hub.pending ++ [⟨.concLost, BitVec.ofNat 4 t.val, c.setWidth 32⟩] ∧
        others u [.trk, .core, .cres, .hub])) ∧
    (∀ c : BitVec 5, win c = [] → exec (.cmdAckTimeout t c false) s = .next s) ∧
    (∀ (c : BitVec 5) x rest, k.winB = x :: rest →
      (x.retries < 3 → ∃ u, exec (.cmdAckTimeout t c true) s = .next u ∧
        u.trk[t].winB = (x :: rest).map again ∧ others u [.trk, .hdr]) ∧
      (3 ≤ x.retries → ∃ u, exec (.cmdAckTimeout t c true) s = .next u ∧ u.trk[t].concLost.getLsbD c.toNat = true ∧
        (∀ y ∈ u.trk[t].winB, y ∈ k.winB) ∧
        u.hub.pending = s.hub.pending ++ [⟨.concLost, BitVec.ofNat 4 t.val, c.setWidth 32⟩] ∧
        others u [.trk, .core, .cres, .hub])) ∧
    (∀ c : BitVec 5, k.winB = [] → exec (.cmdAckTimeout t c true) s = .next s)

/-! ## Chord (08) -/

/-- Requests at a home that serves nothing else (R185, R186, R188, R189, Table 08-4), in every mode, with a directory that names a
line once (an invariant of its own): AskShare and AskOwn of a line nobody
holds are granted exclusively with the line's words; AskUpgrade of its sole sharer without data; with an owner elsewhere the owner
is probed; AskPeek is granted the line's words; AskPut and RetireDirty wait for their CarryPut, which stores the words its mask
names and is acknowledged; RetireClean of a holder is acknowledged and of any other agent is stale. A request to a sleeping slice waits
and asks for its grant (R87), the waiting request of an agent in TACET is dropped (R172), and a unit that caches nothing waits beyond
its limit (R167). Messages of one channel arrive in order (R179): `ready` says that the command's message is the next of its channel.
Completes: askShare, askOwn, askUpgrade, askPeek, askPut, retireDirty, retireClean, carryPut. -/
def Obligations.ChordRequestResults : Prop :=
  ∀ (a c : Cl) (b : Agent) (l : Line) (way : BitVec 2) (s : State), s.directoryOk →
    let i := homeOf l
    let h := s.chord.slice[i]
    let quiet := lineOk l = true ∧ h.flushed = [] ∧ h.switchTo = none ∧ h.quiesce = false ∧ h.flushing = false ∧ h.reserved = [] ∧
      h.early = [] ∧ s.chord.flush = false ∧ s.powerOf (rqSlice i) ≠ .retain ∧ (∀ e ∈ h.tm, e.syn = 0) ∧ (∀ e ∈ h.vd, e.syn = 0)
    let alive := s.chord.wrapped.getLsbD a.val = false
    let sends (k : AskKind) (x : Agent) (w : BitVec 2) : Prop := s.ready (.ask k x l w) = true
    let cacheAsks : List (Instr × AskKind) := [(.askShare a l way, .share), (.askOwn a l way, .own), (.askUpgrade a l way, .upgrade)]
    let unitAsks : List (Instr × AskKind) := [(.askPeek b l, .peek), (.askPut b l, .put)]
    let looks (m : Byte) (x : Bool) := h.tmLook l = (m, x) ∧ h.vdLook l = (m, x)
    let isLine (d : BitVec 512) (p : BitVec 4) : Prop :=
      ∀ j, j < 4 → lineWord d j = (s.peekWord ⟨.chord, lineIdx l + j⟩).1 ∧ p.getLsbD j = (s.peekWord ⟨.chord, lineIdx l + j⟩).2
    let frame (u : State) : Prop := u.chord.l1d = s.chord.l1d ∧ (∀ q : SliceId, q ≠ i → u.chord.slice[q] = s.chord.slice[q])
    let stored (u : State) (d : BitVec 512) (p m : BitVec 4) : Prop :=
      (∀ j, j < 4 → u.cell ⟨.chord, lineIdx l + j⟩ =
        (if m.getLsbD j then Cell.store (lineWord d j) (p.getLsbD j) else s.cell ⟨.chord, lineIdx l + j⟩)) ∧
      (∀ q k, 16 * k < q.bytes → (q = .chord → k < lineIdx l ∨ lineIdx l + 4 ≤ k) → u.cell ⟨q, k⟩ = s.cell ⟨q, k⟩)
    (lineOk l = false → ∀ k ∈ [Instr.askShare a l way, .askOwn a l way, .askUpgrade a l way, .askPeek b l, .askPut b l,
      .retireDirty a l, .retireClean a l], exec k s = .next s) ∧
    (lineOk l = true → s.powerOf (rqSlice i) = .retain →
      (∀ k ∈ [Instr.retireDirty a l, .retireClean a l], exec k s = .next (s.askGrant (rqSlice i))) ∧
      (alive → ∀ k ∈ cacheAsks, exec k.1 s = .next (s.askGrant (rqSlice i)))) ∧
    (lineOk l = true → ¬ alive → ∀ k ∈ cacheAsks, exec k.1 s = .next (s.take (.ask k.2 (agentOf a) l way))) ∧
    (nonCaching b = false ∨ askLimit b ≤ s.outstanding b → ∀ k ∈ unitAsks, exec k.1 s = .next s) ∧
    (quiet → h.txns = [] →
      (alive → looks 0 false → (∀ e ∈ h.vd, e.line ≠ l) → (h.vd.filter (fun e => vdSet e.line == vdSet l)).length < 8 →
        ∀ k ∈ [(Instr.askShare a l way, AskKind.share), (.askOwn a l way, .own)], sends k.2 (agentOf a) way →
          ∃ u d p, exec k.1 s = .next u ∧ isLine d p ∧
          u.chord.net = s.chord.net.erase (.ask k.2 (agentOf a) l way) ++ [.carryGrant (agentOf a) l d p true false] ∧
          u.chord.slice[i].txns = [] ∧ u.chord.slice[i].holders l = oneHot 5 a.val ∧ frame u ∧
          s.changesOnly [.memc, .hdr, .chord, .hub] u) ∧
      (alive → sends .upgrade (agentOf a) way → looks (oneHot 8 a.val) false → ∃ u, exec (.askUpgrade a l way) s = .next u ∧
        u.chord.net = s.chord.net.erase (.ask .upgrade (agentOf a) l way) ++ [.carryGrant (agentOf a) l 0 0 true true] ∧
        u.chord.slice[i].txns = [] ∧ u.chord.slice[i].holders l = oneHot 5 a.val ∧ frame u ∧ s.changesOnly [.chord] u) ∧
      (alive → looks (oneHot 8 c.val) true → c ≠ a →
        (sends .share (agentOf a) way → ∃ u, exec (.askShare a l way) s = .next u ∧
          u.chord.net = s.chord.net.erase (.ask .share (agentOf a) l way) ++ [.probe .share c l] ∧
          (∃ t, u.txn (agentOf a) l = some t ∧ t.awaiting = oneHot 5 c.val ∧ t.active = true) ∧ frame u ∧ s.changesOnly [.chord] u) ∧
        (sends .own (agentOf a) way → ∃ u, exec (.askOwn a l way) s = .next u ∧
          u.chord.net = s.chord.net.erase (.ask .own (agentOf a) l way) ++ [.probe .take c l] ∧
          (∃ t, u.txn (agentOf a) l = some t ∧ t.awaiting = oneHot 5 c.val ∧ t.active = true) ∧ frame u ∧ s.changesOnly [.chord] u)) ∧
      (∀ x, sends .retireClean (agentOf a) 0 → looks (oneHot 8 a.val) x → ∃ u, exec (.retireClean a l) s = .next u ∧
        u.chord.net = s.chord.net.erase (.ask .retireClean (agentOf a) l 0) ++ [.ackDone (agentOf a) l] ∧
        u.chord.slice[i].holders l = 0 ∧ u.chord.slice[i].txns = [] ∧ frame u ∧ s.changesOnly [.chord] u) ∧
      (sends .retireClean (agentOf a) 0 → looks 0 false → ∃ u, exec (.retireClean a l) s = .next u ∧
        u.chord.net = s.chord.net.erase (.ask .retireClean (agentOf a) l 0) ++ [.ackStale a l] ∧
        getN u.chord.cnt 3 0 = getN s.chord.cnt 3 0 + 1 ∧ frame u ∧ s.changesOnly [.chord, .hdr] u) ∧
      (sends .retireDirty (agentOf a) 0 → ∃ u, exec (.retireDirty a l) s = .next u ∧ u.chord.net = s.chord.net.erase (.ask .retireDirty (agentOf a) l 0) ∧
        (∃ t, u.txn (agentOf a) l = some t ∧ t.kind = .retireDirty ∧ t.put = none ∧ t.active = true) ∧ frame u ∧
        s.changesOnly [.chord] u) ∧
      (nonCaching b = true → s.outstanding b < askLimit b → (sends .put b 0 → ∃ u, exec (.askPut b l) s = .next u ∧ u.chord.net = s.chord.net.erase (.ask .put b l 0) ∧
          (∃ t, u.txn b l = some t ∧ t.kind = .put ∧ t.put = none ∧ t.active = true) ∧ frame u ∧ s.changesOnly [.chord] u) ∧
        (∀ m, sends .peek b 0 → looks m false → (field m 5 3 : BitVec 3) = 0 → ∃ u d p, exec (.askPeek b l) s = .next u ∧ isLine d p ∧
          u.chord.net = s.chord.net.erase (.ask .peek b l 0) ++ [.carryGrant b l d p false false] ∧
          u.chord.slice[i].txns = [] ∧ frame u ∧ s.changesOnly [.memc, .hdr, .chord, .hub] u))) ∧
    (quiet → s.memc.injGo = false → ∀ (t : Txn) (d : BitVec 512) (p m : BitVec 4), h.txns = [t] → t.line = l → t.active = true →
      t.put = none → t.evict = none → (t.kind = .put ∧ t.agent = b ∧ looks 0 false ∨
        t.kind = .retireDirty ∧ t.agent = agentOf a ∧ b = agentOf a ∧ looks (oneHot 8 a.val) true) →
      s.ready (.carryPut b l d p m) = true →
      ∃ u, exec (.carryPut b l d p m) s = .next u ∧ stored u d p m ∧ u.chord.slice[i].txns = [] ∧
        u.chord.net = s.chord.net.erase (.carryPut b l d p m) ++ [.ackDone b l] ∧
        u.chord.slice[i].holders l = 0 ∧ frame u ∧ s.changesOnly [.mem, .osti, .chord] u)

/-- Answers at a home that awaits them (R185, R186, R180, R196): AckGone, AckKept and CarryDirty are counted in, and CarryDirty
stores the whole line first; the last answer to an AskOwn grants the line with the data then in the array; LOST poisons the line and is
reported. An answer nobody awaits is reported as COH_PROTO; the data of a request that is still on its way is kept for it (R178).
An answer whose channel has an older message waits (R179). Completes: ackGone, ackKept, carryDirty. -/
def Obligations.ChordAnswerResults : Prop :=
  ∀ (a c : Cl) (l : Line) (d : BitVec 512) (p : BitVec 4) (shared lost : Bool) (s : State), lineOk l = true →
    let i := homeOf l
    let h := s.chord.slice[i]
    let off : BitVec 5 := ~~~ oneHot 5 c.val
    let holdsLine (u : State) (q : BitVec 512) (r : BitVec 4) : Prop :=
      ∀ j, j < 4 → u.cell ⟨.chord, lineIdx l + j⟩ = Cell.store (lineWord q j) (r.getLsbD j)
    (∀ k ∈ [(Instr.ackGone c l lost, CohMsg.ackGone c l lost), (.ackKept c l, .ackKept c l),
        (.carryDirty c l d p shared, .carryDirty c l d p shared), (.carryPut (agentOf c) l d p 0, .carryPut (agentOf c) l d p 0)],
      s.ready k.2 = false → exec k.1 s = .next s) ∧
    (h.flushed = [] → ∀ t : Txn, h.txns = [t] → t.line = l → t.awaiting.getLsbD c.val = true →
      (t.awaiting &&& off ≠ 0 → s.memc.injGo = false →
        (s.ready (.ackGone c l false) = true → ∃ u, exec (.ackGone c l false) s = .next u ∧ u.chord.net = s.chord.net.erase (.ackGone c l false) ∧
          u.chord.slice[i].txns = [{ t with awaiting := t.awaiting &&& off }] ∧ s.changesOnly [.chord] u) ∧
        (s.ready (.ackGone c l true) = true → ∃ u, exec (.ackGone c l true) s = .next u ∧ u.chord.slice[i].txns = [{ t with awaiting := t.awaiting &&& off }] ∧
          (∀ j, j < 4 → (u.cell ⟨.chord, lineIdx l + j⟩).syn = 0x1FF) ∧ getN u.chord.cnt 4 0 = getN s.chord.cnt 4 0 + 1 ∧
          u.hub.pending = s.hub.pending ++ [⟨.cohLost, BitVec.ofNat 4 i.val, BitVec.ofNat 32 (lineAddr l)⟩]) ∧
        (s.ready (.ackKept c l) = true → ∃ u, exec (.ackKept c l) s = .next u ∧ u.chord.net = s.chord.net.erase (.ackKept c l) ∧
          u.chord.slice[i].txns = [{ t with awaiting := t.awaiting &&& off }] ∧ s.changesOnly [.chord] u) ∧
        (s.ready (.carryDirty c l d p shared) = true → ∃ u, exec (.carryDirty c l d p shared) s = .next u ∧ holdsLine u d p ∧
          u.chord.net = s.chord.net.erase (.carryDirty c l d p shared) ∧
          u.chord.slice[i].txns = [{ t with awaiting := t.awaiting &&& off }] ∧ s.changesOnly [.mem, .osti, .chord] u)) ∧
      (t.awaiting &&& off = 0 → t.kind = .own → t.nodata = false → t.agent = agentOf a → s.memc.injGo = false →
        h.flushing = false → s.chord.flush = false →
        (s.ready (.ackGone c l false) = true → ∃ u q r, exec (.ackGone c l false) s = .next u ∧ u.chord.slice[i].txns = [] ∧
          u.chord.net = s.chord.net.erase (.ackGone c l false) ++ [.carryGrant (agentOf a) l q r true false] ∧
          (∀ j, j < 4 → lineWord q j = (s.peekWord ⟨.chord, lineIdx l + j⟩).1 ∧
            r.getLsbD j = (s.peekWord ⟨.chord, lineIdx l + j⟩).2) ∧ s.changesOnly [.memc, .hdr, .chord, .hub] u) ∧
        (s.ready (.carryDirty c l d p false) = true → ∃ u, exec (.carryDirty c l d p false) s = .next u ∧ u.chord.slice[i].txns = [] ∧ holdsLine u d p ∧
          u.chord.net = s.chord.net.erase (.carryDirty c l d p false) ++ [.carryGrant (agentOf a) l d p true false]))) ∧
    (s.putAhead (agentOf c) l = true → s.txn (agentOf c) l = none → s.ready (.carryPut (agentOf c) l d p 15) = true →
      ∃ u, exec (.carryPut (agentOf c) l d p 15) s = .next u ∧ u.chord.slice[i].early = h.early ++ [(agentOf c, l, d, p, 15)] ∧
        u.chord.slice[i].txns = h.txns ∧ u.chord.net = s.chord.net.erase (.carryPut (agentOf c) l d p 15) ∧ s.changesOnly [.chord] u) ∧
    (h.txns = [] → h.flushed = [] → s.putAhead (agentOf c) l = false →
      ∀ k ∈ [(Instr.ackGone c l lost, CohMsg.ackGone c l lost), (.ackKept c l, .ackKept c l),
        (.carryDirty c l d p shared, .carryDirty c l d p shared), (.carryPut (agentOf c) l d p 0, .carryPut (agentOf c) l d p 0)],
      s.ready k.2 = true → ∃ u, exec k.1 s = .next u ∧ u.chord.event.getLsbD 3 = true ∧ u.mem = s.mem ∧
        u.hub.pending = s.hub.pending ++ [⟨.cohProto, BitVec.ofNat 4 i.val, BitVec.ofNat 32 (lineAddr l)⟩])

/-- A live cache (Tables 08-2, 08-3, R184): what each state answers to each probe, with its data, and what a probe leaves; a
transient state defers it; a line it does not hold is answered and reported as stray; a dead agent's wrapper answers for it, LOST where
its line is dirty or has an uncorrectable tag (R195), and sinks what is granted to it. A grant fills the line, and the load that waited
writes its register; AckDone and AckStale end a replacement; a unit that caches nothing takes its grant and its acknowledgement (R177).
Messages of one channel arrive in order (R179). Completes: probeShare, probeTake, probeKill, probeEvict, carryGrant, ackDone, ackStale. -/
def Obligations.ChordCacheResults : Prop :=
  ∀ (c : Cl) (l : Line) (d : BitVec 512) (p : BitVec 4) (excl nod : Bool) (b : Agent) (s : State), lineOk l = true →
    let live := s.chord.wrapped.getLsbD c.val = false
    let arrays : List Part := [.memc, .hdr, .chord, .hub]
    let only (ps : List Part) (u : State) : Prop := (∀ q : Cl, q ≠ c → u.chord.l1d[q] = s.chord.l1d[q]) ∧ u.chord.slice = s.chord.slice ∧
      s.changesOnly ps u
    let probe (k : ProbeKind) : Instr := match k with
      | .share => .probeShare c l | .take => .probeTake c l | .kill => .probeKill c l | .evict => .probeEvict c l
    let grantMsg : CohMsg := .carryGrant (agentOf c) l d p excl false
    (∀ k : ProbeKind, s.ready (.probe k c l) = false → exec (probe k) s = .next s) ∧
    (∀ k : ProbeKind, ∀ x : L1Line, s.ready (.probe k c l) = true → live → s.l1 c l = some x →
      let answers (ps : List Part) (st : Option CState) (m : CohMsg) : Prop := ∃ u, exec (probe k) s = .next u ∧ only ps u ∧
        u.l1 c l = st.map (fun y => { x with st := y }) ∧ u.chord.net = s.chord.net.erase (.probe k c l) ++ [m]
      (x.st = .s → k ≠ .share → answers [.chord] none (.ackGone c l false)) ∧
      (x.st = .e → k = .share → answers [.chord] (some .s) (.ackKept c l)) ∧
      (x.st = .e → k ≠ .share → answers [.chord] none (.ackGone c l false)) ∧
      (x.st = .m → k = .share → answers arrays (some .s) (.carryDirty c l x.data x.poison true)) ∧
      (x.st = .m → k = .kill → answers [.chord] none (.ackGone c l false)) ∧
      (x.st = .m → k = .take ∨ k = .evict → answers arrays none (.carryDirty c l x.data x.poison false)) ∧
      (x.st = .smD → k ≠ .share → answers [.chord] (some .imD) (.ackGone c l false)) ∧
      (x.st = .miA → k ≠ .kill → answers arrays (some .iiA) (.carryDirty c l x.data x.poison false)) ∧
      (x.st = .miA → k = .kill → answers [.chord] (some .iiA) (.ackGone c l false)) ∧
      (x.st = .ciA → answers [.chord] (some .iiA) (.ackGone c l false)) ∧
      (x.st = .isD ∨ x.st = .imD → ∃ u, exec (probe k) s = .next u ∧ only [.chord] u ∧ u.l1 c l = some { x with deferred := some k } ∧
        u.chord.net = s.chord.net.erase (.probe k c l))) ∧
    (∀ k : ProbeKind, s.ready (.probe k c l) = true → live → s.l1 c l = none → ∃ u, exec (probe k) s = .next u ∧
      u.chord.net = s.chord.net.erase (.probe k c l) ++ [.ackGone c l false] ∧ u.chord.event.getLsbD 4 = true ∧
      getN u.chord.cnt 5 0 = getN s.chord.cnt 5 0 + 1 ∧ u.chord.l1d = s.chord.l1d ∧
      u.hub.pending = s.hub.pending ++ [⟨.cohStray, BitVec.ofNat 4 (homeOf l).val, BitVec.ofNat 32 (lineAddr l)⟩]) ∧
    (∀ k : ProbeKind, s.ready (.probe k c l) = true → ¬ live → ∃ u, exec (probe k) s = .next u ∧ only [.chord] u ∧
      u.chord.net = s.chord.net.erase (.probe k c l) ++
        [.ackGone c l (match s.l1 c l with | some x => x.st == .m || x.tagBad | none => false)]) ∧
    (¬ live → ∀ k ∈ [(Instr.carryGrant (agentOf c) l d p excl false, grantMsg), (.ackDone (agentOf c) l, .ackDone (agentOf c) l),
      (.ackStale c l, .ackStale c l)], s.ready k.2 = true → exec k.1 s = .next (s.take k.2)) ∧
    (∀ x : L1Line, s.ready grantMsg = true → live → s.l1 c l = some x → x.deferred = none →
      (x.wait = none → x.st = .isD ∨ x.st = .imD → ∃ u, exec (.carryGrant (agentOf c) l d p excl false) s = .next u ∧ only [.chord] u ∧
        u.l1 c l = some { x with st := if excl || x.st == .imD then .e else .s, words := lineCells d p, tagBad := false, deferred := none } ∧
        u.chord.net = s.chord.net.erase grantMsg) ∧
      (∀ (rd : RegF) (addr : Word), x.st = .isD → x.wait = some (CacheOp.start (.load .lw rd) addr) → lineOf addr.toNat = l →
        addr.toNat % 4 = 0 → ∃ u y, exec (.carryGrant (agentOf c) l d p excl false) s = .next u ∧ u.l1 c l = some y ∧
          y.st = (if excl then .e else .s) ∧ y.words = lineCells d p ∧ y.wait = none ∧ u.core[c].blocked = false ∧
          u.core[c].readG rd = (if rd = 0 then (0, false)
            else (field d (128 * (addr.toNat / 16 % 4) + 8 * (addr.toNat % 16)) 32, p.getLsbD (addr.toNat / 16 % 4))) ∧
          (∀ r, r ≠ rd → u.core[c].readG r = s.core[c].readG r) ∧ s.changesOnly [.memc, .hdr, .chord, .core] u)) ∧
    (∀ x : L1Line, live → s.l1 c l = some x →
      (x.deferred = none → x.wait = none → x.st = .smD → s.ready (.carryGrant (agentOf c) l 0 0 true true) = true →
        ∃ u, exec (.carryGrant (agentOf c) l 0 0 true true) s = .next u ∧ only [.chord] u ∧
          u.l1 c l = some { x with st := .e, deferred := none }) ∧
      (x.st = .miA ∨ x.st = .ciA ∨ x.st = .iiA → s.ready (.ackDone (agentOf c) l) = true →
        ∃ u, exec (.ackDone (agentOf c) l) s = .next u ∧ only [.chord] u ∧ u.l1 c l = none ∧
          u.chord.net = s.chord.net.erase (.ackDone (agentOf c) l)) ∧
      (x.st = .ciA ∨ x.st = .iiA → s.ready (.ackStale c l) = true → ∃ u, exec (.ackStale c l) s = .next u ∧ only [.chord] u ∧
        u.l1 c l = none ∧ u.chord.net = s.chord.net.erase (.ackStale c l)) ∧
      (x.st.stable = true → ∀ k ∈ [(Instr.ackDone (agentOf c) l, CohMsg.ackDone (agentOf c) l), (.ackStale c l, .ackStale c l),
          (.carryGrant (agentOf c) l d p excl false, grantMsg)], s.ready k.2 = true → ∃ u, exec k.1 s = .next u ∧
        u.chord.event.getLsbD 3 = true ∧ u.chord.l1d = s.chord.l1d ∧
        u.hub.pending = s.hub.pending ++ [⟨.cohProto, BitVec.ofNat 4 (homeOf l).val, BitVec.ofNat 32 (lineAddr l)⟩])) ∧
    (nonCaching b = true →
      (s.ready (.carryGrant b l d p excl nod) = true → exec (.carryGrant b l d p excl nod) s =
        .next { s.take (.carryGrant b l d p excl nod) with ans := ⟨lineWord d 0, p != 0, false, bytesOf 64 d, p⟩ }) ∧
      (s.ready (.ackDone b l) = true → exec (.ackDone b l) s = .next { s.take (.ackDone b l) with ans := ⟨0, false, false, [], 0⟩ }))

/-- Chord's controls (R191, R192, R196 to R198, Table 08-8): a flush is recorded and ends once nothing it names is tracked and no
request of a flushed agent is served; a second one is held while it runs and starts at its end (R14); a slice's flush likewise; QUIESCE is the register's bit alone; MODE_REQ switches a CHECKED slice in FACTORY and DEVELOP only; the switch waits
for the active transactions; the reclaim walk ends when every home is ready for it, and an L1D whose reset waited for it is then empty.
Completes: flush, flushDone, sliceFlush, sliceFlushDone, quiesce, modeReq, sliceModeSwitch, reclaimDone. -/
def Obligations.ChordControlResults : Prop :=
  ∀ (i : SliceId) (s : State),
    let h := s.chord.slice[i]
    let others (ps : List Part) (u : State) : Prop := (∀ q : SliceId, q ≠ i → u.chord.slice[q] = s.chord.slice[q]) ∧
      u.chord.l1d = s.chord.l1d ∧ s.changesOnly ps u
    (∀ mask : BitVec 5, ∃ u, exec (.flush mask) s = .next u ∧ u.chord.flush = true ∧ u.chord.flushMask = mask ∧
      u.chord.l1d = s.chord.l1d ∧ s.changesOnly [.snaps, .chord] u ∧
      (s.chord.flush = true → u.chord = { s.chord with flushMask := mask, flushHeld := true }) ∧
      (s.chord.flush = false → u.chord.flushUse = mask ∧ u.chord.flushHeld = false ∧
        ((∀ q : SliceId, s.chord.slice[q].tracked = []) → u.chord.net = s.chord.net ∧ u.chord.slice = s.chord.slice))) ∧
    (s.chord.flush = true → (∀ q : SliceId, s.chord.slice[q].flushed = [] ∧
        (∀ l ∈ s.chord.slice[q].tracked, s.chord.slice[q].holders l &&& s.chord.flushUse = 0) ∧
        ∀ t ∈ s.chord.slice[q].txns, ∀ c : Cl, t.agent = agentOf c → s.chord.flushUse.getLsbD c.val = false) →
      (s.chord.flushHeld = false →
        ∃ u, exec .flushDone s = .next u ∧ u.chord = { s.chord with flush := false } ∧ s.changesOnly [.chord] u) ∧
      (s.chord.flushHeld = true → ∃ u, exec .flushDone s = .next u ∧ u.chord.flush = true ∧ u.chord.flushUse = s.chord.flushMask ∧
        u.chord.flushHeld = false ∧ u.chord.l1d = s.chord.l1d ∧ s.changesOnly [.chord] u)) ∧
    ((∃ q : SliceId, s.chord.slice[q].flushed ≠ [] ∨
        ∃ t ∈ s.chord.slice[q].txns, ∃ c : Cl, t.agent = agentOf c ∧ s.chord.flushUse.getLsbD c.val = true) ∨
      s.chord.flush = false → exec .flushDone s = .next s) ∧
    (∃ u, exec (.sliceFlush i) s = .next u ∧ u.chord.slice[i].flushing = true ∧ u.chord.l1d = s.chord.l1d ∧
      s.changesOnly [.snaps, .chord] u ∧
      (h.flushing = true → u.chord.slice[i] = { h with flushHeld := true } ∧ u.chord.net = s.chord.net) ∧
      (h.flushing = false → h.tracked = [] → u.chord.net = s.chord.net)) ∧
    (h.flushing = true → h.tracked = [] → h.flushed = [] → ∃ u, exec (.sliceFlushDone i) s = .next u ∧
      u.chord.slice[i] = (if h.flushHeld then { h with flushHeld := false } else { h with flushing := false }) ∧
      u.chord.net = s.chord.net ∧ others [.chord] u) ∧
    (h.flushing = false ∨ h.tracked ≠ [] ∨ h.flushed ≠ [] → exec (.sliceFlushDone i) s = .next s) ∧
    (∀ on, ∃ u, exec (.quiesce i on) s = .next u ∧ u.chord.slice[i] = { h with quiesce := on } ∧ u.chord.net = s.chord.net ∧
      others [.snaps, .chord] u) ∧
    (∀ m : BitVec 2, ∃ u, exec (.modeReq i m) s = .next u ∧ u.chord.slice[i].modeReq = m ∧ u.chord.slice[i].mode = h.mode ∧
      others [.snaps, .chord] u ∧
      ((s.rst.lc = .factory ∨ s.rst.lc = .develop) → h.mode = .checked → h.switchTo = none →
        u.chord.slice[i].switchTo = (if m = 2 then some .mirrorOnly else if m = 3 then some .vectorOnly else none)) ∧
      (s.rst.lc ≠ .factory → s.rst.lc ≠ .develop → u.chord.slice[i].switchTo = h.switchTo)) ∧
    (∀ m, h.switchTo = some m → (∃ t ∈ h.txns, t.active = true) → exec (.sliceModeSwitch i) s = .next s) ∧
    (∀ m, h.switchTo = some m → h.txns = [] → ∃ u, exec (.sliceModeSwitch i) s = .next u ∧ u.chord.slice[i].mode = m ∧
      u.chord.slice[i].switchTo = none ∧ (m = .mirrorOnly → u.chord.slice[i].vd = [] ∧ u.chord.slice[i].reserved = []) ∧
      (m = .vectorOnly → u.chord.slice[i].tm = []) ∧ others [.chord] u) ∧
    (h.switchTo = none → exec (.sliceModeSwitch i) s = .next s) ∧
    (s.chord.reclaiming ≠ 0 → (∀ q : SliceId, ∀ c : Cl, s.chord.reclaiming.getLsbD c.val = true →
        s.walkReady c q = true) → ∃ u, exec .reclaimDone s = .next u ∧ u.chord.reclaiming = 0 ∧
      u.chord.event.getLsbD 7 = true ∧ u.chord.dead = s.chord.dead ∧ u.trk = s.trk ∧ u.gov = s.gov ∧
      ∀ c : Cl, u.chord.l1d[c] =
        (if s.chord.reclaiming.getLsbD c.val = true ∧ s.chord.dead.getLsbD c.val = false then [] else s.chord.l1d[c])) ∧
    (s.chord.reclaiming = 0 → exec .reclaimDone s = .next s)

/-! ## The Governor and the Fault Hub (09) -/

/-- GOV_CMD requests (Table 09-2, R203, R206 to R208, R231): each takes its effect and answers result 0 where its conditions hold, and
otherwise answers its result code and changes nothing else: 1 state, 2 ARM_IN, 3 nonce, 4 stage, 5 peer, 6 cause, 7 ARM cycle, 8 CRC,
9 window. A CONFIRM advances to an epoch other than 0; in a formed pair role A waits for the switch instant, and B permits with the epoch
its peer's EPOCH_GO names. A write ends the Steward's snapshot of the block (R8). DISARM clears the epoch, the
zones drop and every trunk in UP gets a ZONE_OFF. (The order of the checks of CONFIRM is the model's choice, log 21; DISARM in
DISARMED and in FERMATA, log 19.) Completes: govArm, govDisarm, govStage, govConfirm, govClearFermata, commitOpen, commitClose,
permitStageExpiry. -/
def Obligations.GovernorRequestResults : Prop :=
  ∀ s : State,
    let g := s.gov
    let w := s.stewWrite blkGov
    let answers (i : Instr) (code : BitVec 4) : Prop := exec i s = .next (w.onGov (fun x => { x with result := code }))
    let refused (code : BitVec 4) : Prop :=
      exec .govConfirm s = .next (w.onGov (fun x => { x with stage := none, result := code }))
    let active := g.state = .armed ∨ g.state = .permitted
    let inTime (t : Time) := s.metr.lineTime.toNat - t.toNat ≤ 500 * Config.ticksPerMs
    (s.armIn = false → answers .govArm 2 ∧ answers .govStage 2) ∧
    (s.armIn = true → g.state ≠ .disarmed ∨ g.hasCommit = false ∨ armAllowed s.rst.lc = false → answers .govArm 1) ∧
    (s.armIn = true → g.state = .disarmed → g.hasCommit = true → armAllowed s.rst.lc = true →
      (g.commitWin = true → answers .govArm 9) ∧
      (g.commitWin = false → ∃ u, exec .govArm s = .next u ∧ u.gov.state = .armed ∧ u.gov.result = 0 ∧ u.gov.epoch = g.epoch ∧
        u.cres.season = .spring ∧ u.mem = s.mem ∧ u.aon = s.aon ∧ u.unis = s.unis)) ∧
    (active → ∃ u, exec .govDisarm s = .next u ∧ u.gov.state = .disarmed ∧ u.gov.epoch = 0 ∧ u.gov.zone = 0 ∧ u.gov.result = 0 ∧
      (∀ t : TrkId, s.trk[t].link = .up → ∃ w, u.trk[t].txq = s.trk[t].txq ++ [w] ∧ cmdOpcode w.word = .zoneOff ∧
        cmdAll w.word = true ∧ cmdHw w.word = true ∧ w.cls = .protective) ∧ u.mem = s.mem ∧ u.core = s.core) ∧
    (g.state = .disarmed → answers .govDisarm 0) ∧ (g.state = .fermata → answers .govDisarm 1) ∧
    (s.armIn = true → ¬ active → answers .govStage 1) ∧
    (s.armIn = true → active → ∃ u, exec .govStage s = .next u ∧ u.gov.stage = some (s.metr.lineTime, g.nonce) ∧ u.gov.result = 0 ∧
      u.gov.state = g.state ∧ u.gov.epoch = g.epoch ∧ u.gov.zone = g.zone ∧ s.changesOnly [.snaps, .gov, .mirl] u) ∧
    (¬ active → refused 1) ∧
    (active → (g.stage = none → refused 4) ∧ ∀ t n, g.stage = some (t, n) →
      (¬ inTime t → refused 4) ∧
      (inTime t → n ≠ g.nonce → refused 3) ∧
      (inTime t → n = g.nonce → s.armIn = false → refused 2) ∧
      (inTime t → n = g.nonce → s.armIn = true → s.formed = true → s.epochAcked = false → refused 5) ∧
      (inTime t → n = g.nonce → s.armIn = true → s.formed = true → s.rst.opt.role = .b → s.epochAcked = true →
        ∃ u, exec .govConfirm s = .next u ∧ u.gov.state = .permitted ∧ u.gov.epoch = g.epoch ∧ u.aon = s.aon ∧ u.gov.stage = none ∧
          u.gov.echo = g.nonce ∧ u.gov.result = 0 ∧ u.mem = s.mem ∧ u.core = s.core ∧ u.unis = s.unis) ∧
      (inTime t → n = g.nonce → s.armIn = true → s.formed = false →
        ∃ u, exec .govConfirm s = .next u ∧ u.gov.state = .permitted ∧ u.gov.epoch = s.ownNext ∧ s.ownNext ≠ 0 ∧
          u.aon.lastEpoch = s.ownNext ∧ u.gov.stage = none ∧ u.gov.echo = g.nonce ∧ u.gov.result = 0 ∧ u.mem = s.mem ∧
          u.core = s.core ∧ u.unis = s.unis) ∧
      (∀ e, inTime t → n = g.nonce → s.armIn = true → (s.formed && s.rst.opt.role == .a) = true →
        s.mirl.proposed = some (e, g.nonce, true) → ∃ u, exec .govConfirm s = .next u ∧
          u.mirl.going = some (e, g.nonce, s.switchInstant, false) ∧ u.mirl.proposed = none ∧ u.gov = g ∧
          s.changesOnly [.snaps, .mirl] u)) ∧
    (g.state ≠ .fermata ∨ s.rst.coda = true → answers .govClearFermata 1) ∧
    (g.state = .fermata → s.rst.coda = false →
      (s.causesClear = false → answers .govClearFermata 6) ∧
      (s.causesClear = true → (s.aon.armCycle && s.armIn) = false → answers .govClearFermata 7) ∧
      (s.causesClear = true → (s.aon.armCycle && s.armIn) = true → ∃ u, exec .govClearFermata s = .next u ∧
        u.gov.state = .armed ∧ u.gov.tripOn = true ∧ u.aon.latch = false ∧ u.gov.result = 0 ∧ u.gov.epoch = g.epoch ∧
        u.gov.stage = none ∧ u.mem = s.mem ∧ u.core = s.core ∧ u.trk = s.trk)) ∧
    (g.state = .disarmed ∨ g.state = .fermata → exec .commitOpen s =
      .next (w.onGov (fun x => { x with commitWin := true, result := 0 }))) ∧
    (active → answers .commitOpen 1) ∧
    (g.commitWin = false ∨ active → answers .commitClose 1) ∧
    (g.commitWin = true → ¬ active → crc32cWords g.clampStaged.toList ≠ g.clampCrcExp → ∃ u, exec .commitClose s = .next u ∧
      u.gov.result = 8 ∧ u.gov.commitWin = false ∧ u.gov.clamp = g.clamp ∧ u.gov.rate = g.rate ∧ u.gov.rateStaged = g.rate ∧
      u.hub.cls = s.hub.cls ∧ u.hub.clsStaged = s.hub.cls ∧ u.unis.plan = s.unis.plan ∧ u.unis.planStaged = s.unis.plan ∧
      u.hub.pending = s.hub.pending ++ [⟨.clampCrc, 0, 0⟩] ∧ s.changesOnly [.snaps, .gov, .hub, .unis, .metr, .core, .trk] u) ∧
    (g.commitWin = true → ¬ active → crc32cWords g.clampStaged.toList = g.clampCrcExp → s.commitMask ≠ 0 →
      let p := getN s.unis.planStaged s.commitMask.toNat ⟨0, 0, 0, false⟩
      (p.valid = true → ∃ u, exec .commitClose s = .next u ∧ u.gov.result = 0 ∧ u.gov.commitWin = false ∧ u.gov.hasCommit = true ∧
        u.gov.state = g.state ∧ u.gov.rate = g.rateStaged ∧ u.gov.rideFrames = g.rideFramesS ∧
        (∀ k : Fin 16, u.gov.clamp[k] = ⟨putBit g.clampStaged[k] 104 false, 0⟩) ∧ u.gov.clampFailed = 0 ∧
        u.hub.cls = s.hub.clsStaged ∧ u.hub.escN = s.hub.escNS ∧ u.hub.escWin = s.hub.escWinS ∧
        u.unis.plan = s.unis.planStaged ∧ u.unis.alive = s.commitMask ∧ u.unis.owner = p.owners ∧ u.unis.planShed = p.shed ∧
        u.metr.sweepSel = s.metr.sweepSelS ∧ u.metr.sweepNext = some s.metr.sweepSelS ∧
        (∀ c : Cl, u.core[c].wdogLimit = s.core[c].wdogStaged) ∧
        (∀ t : TrkId, u.trk[t].sentVmax = s.trk[t].sentVmaxS ∧ u.trk[t].sentVmin = s.trk[t].sentVminS ∧
          u.trk[t].sentTmax = s.trk[t].sentTmaxS) ∧ s.changesOnly [.snaps, .gov, .hub, .unis, .metr, .core, .trk] u) ∧
      (p.valid = false → ∃ u, exec .commitClose s = .next u ∧ u.gov.state = .fermata)) ∧
    ((∀ t n, g.stage = some (t, n) → ∃ u, exec .permitStageExpiry s = .next u ∧ u.gov.stage = none ∧ u.gov.state = g.state ∧
      s.changesOnly [.hdr, .core, .unis, .gov, .hub, .metr] u ∧
      (s.noDeadline (t + BitVec.ofNat 64 (500 * Config.ticksPerMs)) →
        u.gov = { g with stage := none } ∧ s.changesOnly [.gov, .core, .metr] u)) ∧ (g.stage = none → exec .permitStageExpiry s = .next s))

/-- ARM and ESTOP inputs, their discrepancies and the output read-back (R204, R205, R220, Table 09-4): ARM_IN is
asserted while both ARM channels are low, and its release in ARMED or PERMITTED means DISARMED (log 59); an ESTOP channel that becomes
active is reported and an ARM cycle before it counts no more (R231); channels that differ are reported; the second consecutive sample
that differs from the levels driven is reported, and none within the allowance after a change. Completes: armInputChange,
estopInputChange, estopDisc, armDisc, outputReadback. -/
def Obligations.SafetyInputResults : Prop :=
  ∀ s : State,
    (∀ chB high, ∃ u, exec (.armInputChange chB high) s = .next u ∧
      u.aon.armA = (if chB then s.aon.armA else high) ∧ u.aon.armB = (if chB then high else s.aon.armB) ∧
      u.aon.estopA = s.aon.estopA ∧ u.aon.estopB = s.aon.estopB ∧ u.aon.latch = s.aon.latch ∧
      u.armIn = (!u.aon.armA && !u.aon.armB) ∧
      (s.armIn = true ∧ u.armIn = false ∨ (u.aon.armA && u.aon.armB) = true ∧ (s.aon.armA && s.aon.armB) = false →
        s.gov.state = .armed ∨ s.gov.state = .permitted → u.gov.state = .disarmed ∧ u.gov.epoch = 0 ∧ u.gov.zone = 0) ∧
      (s.armIn = false ∨ u.armIn = true → (u.aon.armA && u.aon.armB) = false → s.changesOnly [.aon] u) ∧
      ((u.aon.armA && u.aon.armB) = true → (s.aon.armA && s.aon.armB) = false → u.aon.armOffSince = some s.metr.lineTime) ∧
      (s.armIn = false → u.armIn = true → s.aon.armOffLong = true → (s.aon.armA && s.aon.armB) = false →
        ({ s with aon := { s.aon with armA := false, armB := false } } : State).causesClear = true → u.aon.armCycle = true)) ∧
    (∀ chB high, ∃ u, exec (.estopInputChange chB high) s = .next u ∧
      u.aon.estopA = (if chB then s.aon.estopA else high) ∧ u.aon.estopB = (if chB then high else s.aon.estopB) ∧
      u.aon.armA = s.aon.armA ∧ u.aon.armB = s.aon.armB ∧ s.changesOnly [.aon, .hub] u ∧
      u.hub.pending = s.hub.pending ++
        (if !high && (if chB then s.aon.estopB else s.aon.estopA) then [⟨.estop, 0, 0⟩] else []) ∧
      ((u.aon.estopA && u.aon.estopB) = false → u.aon.estopOkSince = none ∧ u.aon.armCycle = false)) ∧
    (s.aon.estopA ≠ s.aon.estopB → ∃ u, exec .estopDisc s = .next u ∧ u.aon = { s.aon with estopDisc := true } ∧
      u.hub.pending = s.hub.pending ++ [⟨.estopDisc, 0, 0⟩] ∧ s.changesOnly [.aon, .hub] u) ∧
    (s.aon.estopA = s.aon.estopB → exec .estopDisc s = .next s) ∧
    (s.aon.armA ≠ s.aon.armB → ∃ u, exec .armDisc s = .next u ∧ u.aon = { s.aon with armDisc := true } ∧
      u.hub.pending = s.hub.pending ++ [⟨.armDisc, 0, 0⟩] ∧ s.changesOnly [.aon, .hub] u) ∧
    (s.aon.armA = s.aon.armB → exec .armDisc s = .next s) ∧
    (∀ a b z, let good := a = s.tripA ∧ b = s.tripB ∧ z = s.gov.zone
      ∃ u, exec (.outputReadback a b z) s = .next u ∧ s.changesOnly [.gov, .aon, .hub] u ∧ u.gov.zone = s.gov.zone ∧
        u.gov.state = s.gov.state ∧
        (s.gov.rbSkip ≠ 0 → u.gov.rbSkip = s.gov.rbSkip - 1 ∧ u.hub = s.hub ∧ u.aon = s.aon) ∧
        (s.gov.rbSkip = 0 → good → u.aon.outRb = false ∧ u.gov.rbBad = 0 ∧ u.hub = s.hub) ∧
        (s.gov.rbSkip = 0 → ¬ good → u.gov.rbBad = s.gov.rbBad + 1 ∧
          (s.gov.rbBad = 1 → u.aon.outRb = true ∧ u.hub.pending = s.hub.pending ++ [⟨.outRb, 0, 0⟩]) ∧
          (s.gov.rbBad ≠ 1 → u.hub = s.hub ∧ u.aon = s.aon)))

/-- FAULT_REPORT (R223 to R228, Table 09-6): the report is logged at HEAD with its class, C0 does nothing else, C3 takes the Voice
out, C4 trips its trunks, C5 means FERMATA with the trips stopped, the zones low and the latch set. While the Fault Hub is in reset the
source holds its report (R265). LOG_CLR empties the log; INJ_GO reports the injected source, in DEPLOYED only while DISARMED.
Completes: faultReport, logClr, fhInjGo. -/
def Obligations.FaultReportResults : Prop :=
  ∀ (src : FaultSource) (inst : BitVec 4) (detail : Word) (s : State),
    let a := s.applied src inst detail
    let k := s.resolve a.1 src inst detail
    let known := s.hub.pending.contains ⟨src, inst, detail⟩ = true
    let plain := src ≠ .trkEngine ∧ src ≠ .voiceWdog ∧ src ≠ .fabricCe ∧ src ≠ .fabricUe
    (s.hubHeld = true → (known → exec (.faultReport src inst detail) s = .next s) ∧
      (¬ known → plain → ∃ u, exec (.faultReport src inst detail) s = .next u ∧
        u.hub.pending = s.hub.pending ++ [⟨src, inst, detail⟩] ∧ s.changesOnly [.hub] u)) ∧
    (s.hubHeld = false → ∃ u, exec (.faultReport src inst detail) s = .next u ∧
      (s.hub.order.length < 64 → getN u.hub.log s.hub.head.toNat 0 =
          logEntry src a.2 k inst detail s.hub.seq s.metr.lineTime ∧ s.hub.head ∈ u.hub.order ∧
        ∀ j, j < 64 → j ≠ s.hub.head.toNat → getN u.hub.log j 0 = getN s.hub.log j 0) ∧
      u.hub.seq = s.hub.seq + 1 ∧ k.toNat ≤ u.hub.maxClass.toNat ∧ s.hub.maxClass.toNat ≤ u.hub.maxClass.toNat ∧
      (k = .c0 → plain → s.changesOnly [.hub, .hdr] u) ∧
      (¬ known → src = .fabricCe → getN u.memc.cnt 4 0 = getN s.memc.cnt 4 0 + 1) ∧
      (¬ known → src = .fabricUe → getN u.memc.cnt 5 0 = getN s.memc.cnt 5 0 + 1) ∧
      (k = .c1 → plain → s.changesOnly [.hub, .hdr, .core, .cres, .hmbx] u) ∧
      (k ≠ .c0 → u.core[stw].icuPend.getLsbD (16 + 4) = true) ∧
      (k = .c3 → ∀ v, voiceScope src inst = some v → u.unis.tacet.getLsbD v.val = true ∧
        (s.unis.tacet.getLsbD v.val = false → u.unis.alive.getLsbD v.val = false ∧ u.chord.dead.getLsbD v.val = true)) ∧
      (k = .c4 → ∀ t ∈ s.trunkScope src inst detail, u.gov.zoneTrip.getLsbD t.val = true ∧ u.gov.zone.getLsbD t.val = false) ∧
      (k = .c5 → u.gov.state = .fermata) ∧
      (k = .c5 → s.gov.state ≠ .fermata → u.gov.epoch = 0 ∧ u.gov.tripOn = false ∧ u.gov.zone = 0 ∧ u.aon.latch = true) ∧
      (k ≠ .c5 → k ≠ .c4 → k ≠ .c3 → k ≠ .c2 → src ≠ .trkEngine → u.gov = s.gov ∧ u.trk = s.trk)) ∧
    (∃ u, exec .logClr s = .next u ∧ u.hub.order = [] ∧ u.hub.head = 0 ∧ u.hub.maxClass = 0 ∧
      (∀ j : Fin 64, u.hub.log[j] = 0) ∧ u.hub.pending = s.hub.pending ∧ u.hub.cls = s.hub.cls ∧ s.changesOnly [.snaps, .hub] u) ∧
    (s.rst.lc ≠ .deployed ∨ s.gov.state = .disarmed → ∀ f, FaultSource.ofId s.hub.injSrc.toNat = some f → ∃ u,
      exec .fhInjGo s = .next u ∧ u.hub.pending = s.hub.pending ++ [⟨f, 0, 0⟩] ∧ s.changesOnly [.snaps, .hub] u) ∧
    (s.rst.lc = .deployed ∧ s.gov.state ≠ .disarmed ∨ FaultSource.ofId s.hub.injSrc.toNat = none →
      exec .fhInjGo s = .next (s.stewWrite blkFhub))

/-! ## Reset and start-up (11) -/

/-- Reset sources and monitors (Table 11-2, R257, R259, R353, R367), with nothing deepened by fuses and no sequence running: POR and
BOR request L0, RESET_N L1, RST_REQ the level of the Steward's register but never L0; SUPPLY and THERMAL are reported and end.
RESET_ASSERTION (R254 to R256, R262, R265): L0 and L1 zero every memory and leave the Governor disarmed, or in FERMATA while the
latch holds; L1 keeps LINE_TIME and the fault log; L2 keeps the line running, rides, discards staged words and resets every core; an L3
of a Voice and an L4 of the Governor reset their target only; a Voice's L1D waits for the reclaim walk (R196). A target that is not idle
refuses its reset (R265), the domains a reset reaches have their clocks first (R260), and in the hold of R271 only POR counts.
RESET_RELEASE takes the next step of Table 11-3: step 3 once every rail has been good for 100 us (R354), the others under their grants;
a calibration out of its range fails the start (R281). Completes: por, bor, resetN, rstReqGo, supplyExcursion, supplyInWindow, thermal,
junctionTemperatureRecovered, resetAssertion, resetRelease. -/
def Obligations.ResetResults : Prop :=
  ∀ s : State,
    let asks (ps : List Part) (i : Instr) (q : RstReq) : Prop := ∃ u, exec i s = .next u ∧ u.rst.requests = s.rst.requests ++ [q] ∧
      u.rst.cause.getLsbD q.src.val = true ∧ s.changesOnly ps u
    let zeroed (u : State) : Prop := (∀ c : Cl, u.mem.itcm[c] = .empty ∧ u.mem.dtcm[c] = .empty) ∧ u.mem.chord = .empty ∧
      (∀ f : Fin 2, u.mem.score[f] = .empty) ∧ u.mem.verdict = .empty ∧ u.mem.flashA = s.mem.flashA ∧ u.mem.flashB = s.mem.flashB
    let seqIs (u : State) (q : RstReq) (step : Nat) : Prop := u.rst.seq = some ⟨q.level, q.target, step⟩ ∧ u.rst.busy = true ∧
      u.rst.requests = [] ∧ u.rst.lastSrc = BitVec.ofNat 4 q.src.val
    let rested : GovState := if s.aon.latch then .fermata else .disarmed
    let held : Bool := s.aon.latch || s.rst.coda
    asks [.rst] .por ⟨0, .l0, 0, true⟩ ∧
    (s.rst.seq = none → s.rst.optionHold = false → (∀ r, asks [.rst] (.bor r) ⟨1, .l0, 0, false⟩) ∧
      (s.rst.fuses.reach[(2 : Fin 10)] = 0 → ∀ b, asks [.rst] (.resetN b) ⟨2, .l1, 0, false⟩) ∧
      (s.rst.fuses.reach[(4 : Fin 10)] = 0 →
        (s.rst.reqLevel = 1 → asks [.snaps, .rst] (.rstReqGo .steward) ⟨4, .l1, s.rst.reqTarget, false⟩) ∧
        (s.rst.reqLevel = 2 → asks [.snaps, .rst] (.rstReqGo .steward) ⟨4, .l2, s.rst.reqTarget, false⟩))) ∧
    (s.rst.optionHold = true → (∀ r, ∃ u, exec (.bor r) s = .next u ∧ u.rst.requests = s.rst.requests ∧ u.rst.optionHold = true ∧
        u.rst.seq = s.rst.seq ∧ s.changesOnly [.rst] u) ∧ exec (.resetN false) s = .next s ∧
      ∃ u, exec (.resetN true) s = .next u ∧ u.rst.optionHold = false ∧ u.rst.failed = false ∧ u.rst.seq = some ⟨.l0, 0, 2⟩ ∧
        s.changesOnly [.rst] u) ∧
    (s.rst.reqLevel = 0 ∨ 5 ≤ s.rst.reqLevel.toNat → exec (.rstReqGo .steward) s = .next (s.stewWrite blkRstc)) ∧
    (∀ v, exec (.rstReqGo (.voice v)) s = .next s) ∧
    (∀ r, (∃ u, exec (.supplyExcursion r) s = .next u ∧ u.aon.railBad.getLsbD (railBit r) = true ∧
        u.hub.pending = s.hub.pending ++ [⟨.supply, 0, BitVec.ofNat 32 (railBit r)⟩] ∧ s.changesOnly [.aon, .hub] u) ∧
      (∃ u, exec (.supplyInWindow r) s = .next u ∧ u.aon.railBad.getLsbD (railBit r) = false ∧
        (∀ j, j ≠ railBit r → u.aon.railBad.getLsbD j = s.aon.railBad.getLsbD j) ∧
        (s.aon.railBad ≠ 0 → u.aon.railBad = 0 → u.aon.railOkSince = some s.metr.lineTime) ∧ s.changesOnly [.aon] u)) ∧
    (∃ u, exec .thermal s = .next u ∧ u.aon = { s.aon with hot := true, armOffLong := false, armCycle := false } ∧
      u.hub.pending = s.hub.pending ++ [⟨.thermal, 0, 0⟩] ∧ s.changesOnly [.aon, .hub] u) ∧
    (∃ u, exec .junctionTemperatureRecovered s = .next u ∧ u.aon = { s.aon with hot := false } ∧ s.changesOnly [.aon] u) ∧
    (s.rst.requests = [] → exec .resetAssertion s = .next s) ∧
    (∀ q : RstReq, s.rst.requests = [q] → s.rst.seq = none →
      (q.level = .l0 → ∃ u, exec .resetAssertion s = .next u ∧ zeroed u ∧ seqIs u q 2 ∧ u.metr.lineTime = 0 ∧
        u.gov.state = .disarmed ∧ u.gov.tripOn = false ∧ (∀ c : Cl, u.core[c] = .reset) ∧ (∀ t : TrkId, u.trk[t] = .reset) ∧
        u.hmbx.resetSeen = true ∧ u.armIn = false ∧ u.aon.estopA = true ∧ u.aon.estopB = true ∧
        u.rst.attempts = (if q.por then 0 else s.rst.attempts)) ∧
      (q.level = .l1 → ∃ u, exec .resetAssertion s = .next u ∧ zeroed u ∧ seqIs u q 3 ∧ u.metr.lineTime = s.metr.lineTime ∧
        u.gov.state = rested ∧ u.gov.epoch = 0 ∧ u.gov.zone = 0 ∧ (∀ c : Cl, u.core[c].inReset = true ∧ u.core[c].pc = 0x07000000) ∧
        (∀ t : TrkId, u.trk[t].link = .down ∨ u.trk[t].link = .tacet) ∧ u.hub.log = s.hub.log ∧ u.hub.seq = s.hub.seq ∧
        u.hmbx.resetSeen = true ∧ u.aon = s.aon ∧ u.rst.attempts = s.rst.attempts ∧ u.rst.rstout = false) ∧
      (q.level = .l2 → (∀ r ∈ slices.map rqSlice ++ clusters.map rqCl, s.powerOf r = .run) →
        ∃ u, exec .resetAssertion s = .next u ∧ seqIs u q 5 ∧ u.metr.lineTime = s.metr.lineTime ∧
        u.gov.state = s.gov.state ∧ u.gov.epoch = s.gov.epoch ∧ u.gov.zone = s.gov.zone ∧ u.gov.riding = true ∧
        u.gov.commitWin = false ∧ (∀ c : Cl, u.gov.staged[c] = [] ∧ u.core[c].inReset = true ∧ u.core[c].g = Core.reset.g) ∧
        (∀ t : TrkId, u.trk[t].link = s.trk[t].link ∧ u.trk[t].txq = s.trk[t].txq) ∧ u.hub.log = s.hub.log ∧
        u.hmbx.resetSeen = true ∧ getN u.rst.cnt 0 0 = getN s.rst.cnt 0 0 + 1 ∧ u.aon = s.aon ∧
        (s.hmbx.busy = true → u.hmbx.busy = false ∧ u.hmbx.lastTag = s.hmbx.busyTag ∧ (field u.hmbx.lastStatus 0 8 : Byte) = 0x0B)) ∧
      (¬ (domainOf q).all s.clockable = true → (∃ u, exec .resetAssertion s = .next u ∧ u.rst.requests = [q] ∧ u.rst.seq = none) ∨
        exec .resetAssertion s = .next (s.refuse q)) ∧
      (∀ v : Vc, q.level = .l3 → q.target = BitVec.ofNat 8 v.val → s.powerOf (rqVoice v) = .run → ∃ u, exec .resetAssertion s = .next u ∧ seqIs u q 9 ∧
        u.unis.tacet.getLsbD v.val = true ∧ u.core[vcl v].inReset = true ∧ u.core[vcl v].pc = 0x07000000 ∧
        u.chord.dead.getLsbD v.val = false ∧
        u.chord.l1d[vcl v] = (if u.chord.reclaiming.getLsbD v.val then s.chord.l1d[vcl v] else []) ∧ u.mem = s.mem ∧ u.trk = s.trk ∧ u.gov.state = s.gov.state ∧
        (∀ d : Cl, d ≠ vcl v → u.core[d].g = s.core[d].g ∧ u.core[d].pc = s.core[d].pc)) ∧
      (q.level = .l4 → q.target = 0x25 → s.govIdle = false → ∃ u, exec .resetAssertion s = .next u ∧ u.rst.refused = true ∧
        u.rst.requests = [] ∧ s.changesOnly [.rst] u) ∧
      (q.level = .l4 → q.target = 0x25 → s.govIdle = true → ∃ u, exec .resetAssertion s = .next u ∧ seqIs u q 9 ∧
        u.gov.state = (if held then .fermata else .disarmed) ∧ u.gov.hasCommit = false ∧ u.gov.epoch = 0 ∧ u.gov.zone = 0 ∧ u.aon = s.aon ∧ s.changesOnly [.gov, .hdr, .snaps, .rst] u)) ∧
    (s.rst.seq = none → ∀ cal, exec (.resetRelease cal) s = .next s) ∧
    (∀ q : RstSeq, s.rst.seq = some q → ∀ cal : Calibration,
      (q.step = 3 → s.aon.railOkSince = none → exec (.resetRelease cal) s = .next s) ∧
      (q.step = 3 → s.aon.railOkSince ≠ none → ∃ u, exec (.resetRelease cal) s = .next u ∧
        u.gov.state = (if held then .fermata else .disarmed) ∧ u.gov.tripOn = !held ∧
        u.rst.rstout = true ∧ u.rst.seq = some { q with step := if q.level = .l0 then 4 else 5 } ∧
        s.changesOnly [.hdr, .core, .unis, .gov, .hub, .metr, .rst] u) ∧
      (q.step = 5 → (∀ r ∈ slices.map rqSlice ++ [rqStw], s.clockable r = true) → ∃ u, exec (.resetRelease cal) s = .next u ∧
        (∀ i : SliceId, u.powerOf (rqSlice i) = .run) ∧ u.powerOf rqStw = .run ∧
        u.rst.seq = some { q with step := if q.level = .l2 then 7 else 6 } ∧ u.gov = s.gov ∧ u.trk = s.trk) ∧
      (q.step = 5 → (∃ r ∈ slices.map rqSlice ++ [rqStw], s.clockable r = false) → ∃ u, exec (.resetRelease cal) s = .next u ∧
        u.rst = s.rst ∧ s.changesOnly [.cres] u) ∧
      (q.step = 6 → calibrated cal s.rcOnly = true → s.memc.injGo = false → ∃ u, exec (.resetRelease cal) s = .next u ∧ zeroed u ∧
        (∀ c : Cl, u.chord.l1d[c] = []) ∧ u.rst.seq = some { q with step := 7 } ∧ s.changesOnly [.mem, .osti, .chord, .rst] u) ∧
      (q.step = 6 → calibrated cal s.rcOnly = false → ∃ u, exec (.resetRelease cal) s = .next u ∧
        u.rst.attempts = satInc s.rst.attempts ∧ (field u.rst.bootRec.bist 0 2 : BitVec 2) = 2 ∧ u.mem = s.mem) ∧
      (q.step = 8 → (∀ v : Vc, s.clockable (rqVoice v) = true) → ∃ u, exec (.resetRelease cal) s = .next u ∧
        u.rst.seq = none ∧ u.rst.busy = false ∧
        (q.level ≠ .l2 → (∀ v : Vc, u.powerOf (rqVoice v) = .retain) ∧ u.gov = s.gov ∧
          ((∀ v : Vc, s.powerOf (rqVoice v) ≠ .off) → u.mem = s.mem))))

/-- The option phase, BIST and images (R270 to R292): a consistent reading selects role, sources and life cycle and the start goes on, a
failed one is counted with its code; a BIST slice that ends is recorded, a Voice it names stands failed, a fatal result is a
failed start; BIST_REQ runs its slices where R280 allows; the next source's image is accepted with its digest, or rejected; the boot
watchdog and a failed start count an attempt, the third means Coda, after the watchdog's L1 (R287); READY clears the attempts;
ITCM_SEAL records the ITCM's CRC. A device that has left FACTORY keeps its fuses, and its life-cycle state moves forward only (R276,
R352). Completes: optionPhaseEnd, bistSliceEnd, bistReqGo, bootImageCheck, bootWatchdog, ready, itcmSeal. -/
def Obligations.StartUpResults : Prop :=
  ∀ s : State,
    (∀ (o : OptionReading) (strap : BitVec 4) (adc : BitVec 10) (f : Fuses) (lc : LifeCycle) (t : Byte),
      strapsOf o.straps = some strap → o.optr = List.replicate 8 adc → s.lcRead o = some lc →
      o.refQualified = true → (field strap 2 2 : BitVec 2) ≠ 2 → s.rst.seq = some ⟨.l0, t, 2⟩ →
      (o.resetHeld = false → o.fuses = some f → ∃ u, exec (.optionPhaseEnd o) s = .next u ∧ u.rst.seq = some ⟨.l0, 0, 3⟩ ∧
        u.rst.lc = lc ∧ (s.rst.array = none → u.rst.fuses = f) ∧ u.rst.array = some (u.rst.fuses, lc) ∧
        (∀ old k, s.rst.array = some (old, k) → lcMoves k lc = true ∧ (k ≠ .factory → u.rst.fuses = old) ∧
          ∀ j : Fin 60, old.floor[j] ≤ u.rst.fuses.floor[j]) ∧
        u.rst.restarts = 0 ∧ u.rst.opt.bootsel = field strap 0 2 ∧ u.rst.opt.clkmode = field strap 2 2 ∧
        u.rst.opt.role = (if 238 < adc.toNat ∧ adc.toNat ≤ 510 then .a else if 510 < adc.toNat ∧ adc.toNat ≤ 784 then .b else .solo) ∧
        u.metr.refOk = true ∧ s.changesOnly [.rst, .metr] u) ∧
      (o.fuses = none ∨ o.resetHeld = true → s.rst.restarts + 1 < 15 → ∃ u, exec (.optionPhaseEnd o) s = .next u ∧ u.rst.seq = s.rst.seq ∧
        u.rst.restarts = s.rst.restarts + 1 ∧ u.rst.bootRec.optionCode = (if o.resetHeld then 7 else 1) ∧ u.rst.lc = s.rst.lc ∧
        s.changesOnly [.rst] u) ∧
      (o.fuses = none → 15 ≤ s.rst.restarts + 1 → s.rst.attempts.toNat < 2 → ∃ u, exec (.optionPhaseEnd o) s = .next u ∧
        u.rst.optionHold = true ∧ u.rst.seq = none ∧ u.rst.attempts = s.rst.attempts + 1 ∧ s.changesOnly [.rst] u)) ∧
    (s.rst.seq = none → ∀ o, exec (.optionPhaseEnd o) s = .next s) ∧
    (∀ (i : Fin 8) (rest : List (Fin 8)) (r : BistResult), s.rst.bistTodo = i :: rest →
      (s.holds rqBist = false → ∃ u, exec (.bistSliceEnd r) s = .next u ∧ (∃ w ∈ u.cres.waiting, w.id = rqBist) ∧
        s.changesOnly [.cres] u) ∧
      (s.holds rqBist = true → s.bistIsFatal i r = false →
        ∃ u, exec (.bistSliceEnd r) s = .next u ∧ u.rst.bistTodo = rest ∧ u.unis.notLive = s.unis.notLive ||| s.voicesFailed i r ∧
          (field u.rst.bootRec.bist (2 * i.val) 2 : BitVec 2) = (if overran r i then 3 else if s.bistNamed i r then 1 else 0) ∧
          (rest = [] → s.rst.bistManual = false → s.rst.bistFatal = none → u.rst.seq = some ⟨.l0, 0, 5⟩) ∧
          (rest = [] → s.rst.bistManual = true → u.rst.requests = s.rst.requests ++ [⟨7, .l1, 0, false⟩]) ∧
          (rest ≠ [] → u.rst.seq = s.rst.seq ∧ u.rst.requests = s.rst.requests) ∧ (i ≠ 2 → u.mem = s.mem)) ∧
      (s.holds rqBist = true → s.bistIsFatal i r = true → overran r i = false → s.rst.bistManual = false →
        s.rst.attempts.toNat < 2 → ∃ u, exec (.bistSliceEnd r) s = .next u ∧ u.rst.bistTodo = [] ∧
          u.rst.attempts = s.rst.attempts + 1 ∧ u.rst.requests = s.rst.requests ++ [⟨7, .l0, 0, false⟩] ∧ u.rst.coda = s.rst.coda ∧
          (i ≠ 2 → u.mem = s.mem)) ∧
      (s.holds rqBist = true → s.bistIsFatal i r = true → overran r i = true → rest ≠ [] → ∃ u, exec (.bistSliceEnd r) s = .next u ∧
        u.rst.bistTodo = rest ∧ u.rst.bistFatal.isSome = true ∧ u.rst.attempts = s.rst.attempts ∧ u.rst.seq = s.rst.seq)) ∧
    (s.rst.bistTodo = [] → ∀ r, exec (.bistSliceEnd r) s = .next s) ∧
    ((s.rst.lc = .factory ∨ s.rst.lc = .develop ∨ s.rst.lc = .retired) → s.gov.state = .disarmed →
      (s.rst.bistSlices ≠ 0 → ∃ u, exec .bistReqGo s = .next u ∧ u.rst.bistManual = true ∧ u.rst.bootRec = s.rst.bootRec ∧
        (∀ i : Fin 8, i ∈ u.rst.bistTodo ↔ s.rst.bistSlices.getLsbD i.val = true) ∧
        (rqBist ∈ u.cres.grants ∨ ∃ w ∈ u.cres.waiting, w.id = rqBist) ∧ s.changesOnly [.snaps, .rst, .cres] u) ∧
      (s.rst.bistSlices = 0 → ∃ u, exec .bistReqGo s = .next u ∧ u.rst.requests = s.rst.requests ++ [⟨7, .l1, 0, false⟩] ∧
        s.changesOnly [.snaps, .rst] u)) ∧
    (s.rst.lc = .deployed ∨ s.rst.lc = .blank ∨ s.gov.state ≠ .disarmed → exec .bistReqGo s = .next (s.stewWrite blkRstc)) ∧
    (∀ src : ImageSource, let bs := s.imageBytes src
      s.inRom = true → s.bootOrder.find? (fun x => !s.rst.rejected.contains x) = some src →
      (s.imageFailure bs false = none → ∃ u, exec (.bootImageCheck src false) s = .next u ∧
        u.rst.digest = some (imgBig bs 0x60 32, imgLoad bs, imgLength bs) ∧ u.rst.drunor = s.unis.stwAway.isNone ∧
        u.rst.rejected = [] ∧ u.rst.drunorSrc = some src ∧ u.rst.drunorVersion = imgField 64 bs 0x18 8 ∧ u.rst.attempts = s.rst.attempts ∧
        (∀ c : Cl, c ≠ stw → u.mem.itcm[c] = s.mem.itcm[c] ∧ u.mem.dtcm[c] = s.mem.dtcm[c])) ∧
      (∀ d, s.imageFailure bs false = some d → (∃ y ∈ s.bootOrder, y ≠ src ∧ y ∉ s.rst.rejected) →
        ∃ u, exec (.bootImageCheck src false) s = .next u ∧ u.rst.rejected = s.rst.rejected ++ [src] ∧ u.rst.drunor = false ∧
          u.rst.attempts = s.rst.attempts ∧ s.changesOnly [.rst] u)) ∧
    (s.inRom = false → ∀ src, exec (.bootImageCheck src false) s = .next s) ∧
    (∀ src, s.rst.drunor = true → s.hmbx.ready = false → s.rst.drunorSrc = some src →
      (∀ v : Vc, s.eligible v = true → s.powerOf (rqVoice v) = .run) → s.rst.lc ≠ .blank → s.rst.lc ≠ .retired →
      let bs := appPart (s.imageBytes src)
      (appPresent bs = false → exec (.bootImageCheck src true) s = .next s) ∧
      (appPresent bs = true → s.imageFailure bs true = none → ∃ u, exec (.bootImageCheck src true) s = .next u ∧
        u.rst.appVersion = imgField 64 bs 0x18 8 ∧ u.rst.drunor = true ∧ u.rst.attempts = s.rst.attempts ∧
        u.mem.itcm[stw] = s.mem.itcm[stw] ∧ (∀ v : Vc, s.eligible v = false → u.mem.itcm[vcl v] = s.mem.itcm[vcl v]))) ∧
    (s.rst.bootWdog = true → ∃ u, exec .bootWatchdog s = .next u ∧ u.rst.bootWdog = false ∧ u.rst.attempts = satInc s.rst.attempts ∧
      u.rst.requests = s.rst.requests ++ [⟨7, .l1, 0, false⟩] ∧ s.changesOnly [.rst] u ∧
      u.rst.codaDue = (if 2 ≤ s.rst.attempts.toNat then some 1 else s.rst.codaDue)) ∧
    (∀ q cause, s.rst.seq = some q → q.step = 7 → q.level ≠ .l2 → s.codaOption = none → s.rst.codaDue = some cause → ∀ cal,
      ∃ u, exec (.resetRelease cal) s = .next u ∧ u.rst.coda = true ∧ u.gov.state = .fermata ∧ u.gov.zone = 0 ∧
        ∀ v : Vc, u.core[vcl v].inReset = true) ∧
    (s.rst.bootWdog = false → exec .bootWatchdog s = .next s) ∧
    (s.readyMet = true → s.hmbx.ready = false → ∃ u, exec .ready s = .next u ∧ u.hmbx.ready = true ∧ u.hmbx.coda = s.rst.coda ∧
      (s.rst.coda = false → u.rst.attempts = 0 ∧ u.rst.bootWdog = false) ∧
      (s.hmbx.fifo.length < 64 → ∃ e, u.hmbx.fifo = s.hmbx.fifo ++ [e] ∧ (field e 0 8 : Byte) = 1) ∧
      u.mem = s.mem ∧ u.gov = s.gov ∧ u.trk = s.trk) ∧
    (s.readyMet = false ∨ s.hmbx.ready = true → exec .ready s = .next s) ∧
    (∀ mask : BitVec 4, ∃ u, exec (.itcmSeal mask) s = .next u ∧ u.rst.sealed = s.rst.sealed ||| mask ∧
      (∀ v : Vc, u.rst.warmCrc[v] = (if mask.getLsbD v.val then s.itcmCrc v else s.rst.warmCrc[v])) ∧ u.mem = s.mem ∧
      (∀ c : Cl, (∀ v : Vc, vcl v = c → mask.getLsbD v.val = false) → u.core[c].pc = s.core[c].pc ∧ u.core[c].g = s.core[c].g) ∧
      s.changesOnly [.snaps, .memc, .hdr, .hub, .rst, .core, .cres, .metr] u)

/-! ## The host mailbox (12) -/

/-- SPI transactions and the window (R295 to R301, R316): a read returns the bytes that lie at the window's offsets and pops the event
entry it reads whole; FAST_STATUS repeats STATUS[31:0]; a write takes whole native words into STATUS, the doorbell or the command region,
the last while neither BUSY nor READY forbids it, else it is discarded and counted; malformed transactions are counted and do
nothing; the exact reset frame requests its level. An event is appended whole or dropped whole. DONE ends the command in progress
with its response, or with what the checks of its header say (R303 to R305), or with POISON and the index of the word that stopped the
mailbox DMA (R97; the DMA reads the response's data from the buffer in Chord into which Drunor has put them, log 92). Completes: windowRead, windowWrite, fastStatus, statusWrite, doorbell, eventPop, resetFrame, evtPush, hmbxDone. -/
def Obligations.MailboxResults : Prop :=
  ∀ s : State,
    let h := s.hmbx
    let k := cmdOf (getN h.cmd 0 0)
    let gives (i : Instr) (bs : List Byte) : Prop := ∃ u, exec i s = .next u ∧ u.ans.bytes = bs ∧ s.changesOnly [.ans] u
    let counts (i : Instr) (n : Nat) : Prop := ∃ u, exec i s = .next u ∧ getN u.hmbx.cnt n 0 = getN h.cnt n 0 + 1 ∧
      u.hmbx = { h with cnt := u.hmbx.cnt } ∧ s.changesOnly [.hmbx, .hdr, .ans] u
    let discards (i : Instr) : Prop := ∃ u, exec i s = .next u ∧ getN u.hmbx.cnt 0 0 = getN h.cnt 0 0 + 1 ∧
      u.hmbx = { h with cnt := u.hmbx.cnt, rejected := true, rejectCount := satInc h.rejectCount } ∧ s.changesOnly [.hmbx, .hdr] u
    let ends (ps : List Part) (code detail : Byte) (u : State) : Prop := exec .hmbxDone s = .next u ∧ u.hmbx.busy = false ∧
      u.hmbx.done = true ∧ u.hmbx.cur = none ∧ u.hmbx.prepared = none ∧ u.hmbx.inProgress = none ∧ u.hmbx.lastTag = h.busyTag ∧
      u.hmbx.lastStatus = detail ++ code ∧ s.changesOnly (ps ++ [.snaps, .hmbx, .hdr, .drunor, .mirl, .rst, .cres]) u
    let still (r : Response) : Prop := r.data = [] ∨ s.romSet = true
    (∀ addr n, (field addr 12 4 : BitVec 4) ≠ 0 → counts (.windowRead addr n) 2) ∧
    (s.spiDead = true → ∀ addr n, (field addr 12 4 : BitVec 4) = 0 → gives (.windowRead addr n) [] ∧ gives (.fastStatus n) []) ∧
    (s.spiDead = false →
      (∀ addr n, addr.toNat + n ≤ 0x600 ∨ 0x800 ≤ addr.toNat ∧ addr.toNat < 0x1000 ∧ addr.toNat + n ≤ 0x1000 →
        ∃ u, exec (.windowRead addr n) s = .next u ∧
          u.ans.bytes = (List.range n).map (fun i => s.windowByte (addr.toNat + i)) ∧
          u.hmbx = { h with irqDone := h.irqDone && !(decide (addr.toNat ≤ 0x200) && decide (0x210 ≤ addr.toNat + n)) } ∧
          s.changesOnly [.ans, .hmbx] u) ∧
      (∀ e rest, h.fifo = e :: rest → ∃ u, exec (.windowRead 0x600 16) s = .next u ∧ u.ans.bytes = bytesOf 16 e ∧
        u.hmbx = { h with fifo := rest } ∧ s.changesOnly [.ans, .hmbx] u) ∧
      (∀ n, ∃ u, exec (.fastStatus n) s = .next u ∧ u.ans.bytes.length = n ∧
        (∀ i, i < n → u.ans.bytes[i]? = some (field s.statusWord (8 * (i % 4)) 8)) ∧ s.changesOnly [.ans] u)) ∧
    (∀ e rest, h.fifo = e :: rest → ∃ u, exec .eventPop s = .next u ∧ u.ans.bytes = bytesOf 16 e ∧
      u.hmbx = { h with fifo := rest } ∧ s.changesOnly [.ans, .hmbx] u) ∧
    (h.fifo = [] → gives .eventPop (List.replicate 16 0)) ∧
    (∀ addr bs, (field addr 12 4 : BitVec 4) ≠ 0 ∨ (field addr 0 4 : BitVec 4) ≠ 0 ∨ (bs ≠ [] ∧ bs.length < 16) →
      counts (.windowWrite addr bs) 2) ∧
    (∀ w, exec (.windowWrite 0 (bytesOf 16 w)) s = exec (.statusWrite w) s ∧
      exec (.windowWrite 0xF0 (bytesOf 16 w)) s = exec (.doorbell w) s ∧
      ∃ u, exec (.statusWrite w) s = .next u ∧ u.hmbx.rejected = (h.rejected && !w.getLsbD 4) ∧
        u.hmbx.rejectCount = (if w.getLsbD 4 then 0 else h.rejectCount) ∧ u.hmbx.resetSeen = (h.resetSeen && !w.getLsbD 7) ∧
        u.hmbx.done = h.done ∧ u.hmbx.busy = h.busy ∧ u.hmbx.cmd = h.cmd ∧ u.hmbx.rsp = h.rsp ∧ s.changesOnly [.hmbx] u) ∧
    (∀ (i : Fin 16) w, let write := Instr.windowWrite (BitVec.ofNat 16 (0x100 + 16 * i.val)) (bytesOf 16 w)
      (s.hostOpen = true → ∃ u, exec write s = .next u ∧ u.hmbx.cmd[i] = w ∧
        (∀ j : Fin 16, j ≠ i → u.hmbx.cmd[j] = h.cmd[j]) ∧ u.hmbx = { h with cmd := u.hmbx.cmd } ∧ s.changesOnly [.hmbx] u) ∧
      (s.hostOpen = false → discards write)) ∧
    (s.hostOpen = true → ∃ u, exec (.doorbell 1) s = .next u ∧ u.hmbx.busy = true ∧ u.hmbx.done = false ∧ u.hmbx.busyTag = k.tag ∧
      u.hmbx.cur = some k ∧ u.hmbx.rangAt = s.metr.lineTime ∧ u.hmbx.cmd = h.cmd ∧ u.hmbx.rsp = h.rsp ∧
      u.core[stw].icuPend.getLsbD (16 + blkHmbx.val) = true ∧ s.changesOnly [.hmbx, .core, .cres] u) ∧
    (∀ w, s.hostOpen = false ∨ w ≠ 1 → discards (.doorbell w)) ∧
    (∀ l : Byte, l = 1 ∨ l = 2 →
      let frame := Instr.resetFrame [0xD5, 0x5A, 0xA5, 0xC3, 0x3C, 0xA5, 0x5A, 0x3C, 0xC3, l, ~~~l]
      s.rst.seq = none → s.rst.optionHold = false → s.rst.fuses.reach[(3 : Fin 10)] = 0 → ∃ u, exec frame s = .next u ∧
        u.rst.requests = s.rst.requests ++ [⟨3, if s.rst.coda then .l1 else levelOf l.toNat, 0, false⟩] ∧
        getN u.hmbx.cnt 3 0 = getN h.cnt 3 0 + 1 ∧ u.hmbx = { h with cnt := u.hmbx.cnt } ∧ s.changesOnly [.rst, .hmbx, .hdr] u) ∧
    (∀ bs, frameLevel bs = none → counts (.resetFrame bs) 2) ∧
    (∀ e, let es := s.eventWords e
      (es = [] → exec (.evtPush e) s = .next s) ∧
      (es ≠ [] → h.fifo.length + es.length ≤ 64 → ∃ u, exec (.evtPush e) s = .next u ∧
        u.hmbx.fifo = h.fifo ++ numberEvents h.evtLost h.evtSeq es ∧ u.hmbx.evtSeq = h.evtSeq + BitVec.ofNat 16 es.length ∧
        u.hmbx.evtLost = false ∧ u.hmbx.cnt = h.cnt ∧ u.hmbx.cmd = h.cmd ∧ u.hmbx.rsp = h.rsp ∧ s.changesOnly [.snaps, .hmbx] u) ∧
      (es ≠ [] → 64 < h.fifo.length + es.length → ∃ u, exec (.evtPush e) s = .next u ∧ u.hmbx.fifo = h.fifo ∧
        u.hmbx.evtLost = true ∧ u.hmbx.evtSeq = h.evtSeq ∧ getN u.hmbx.cnt 4 0 = getN h.cnt 4 0 + 1 ∧
        s.changesOnly [.snaps, .hmbx, .hdr] u)) ∧
    (h.busy = false → exec .hmbxDone s = .next (s.stewWrite blkHmbx)) ∧
    (h.busy = true → ∀ r, h.prepared = some r →
      (∀ ps, (still r ∧ ps = []) ∨ (r.data.length ≤ 63 ∧ s.noCopies ∧ s.memc.injGo = false ∧ ps = [.mem, .osti]) →
        ∃ u, ends ps r.code r.detail u ∧
        (∀ c, h.cur = some c → u.hmbx.stored = some (c.crc, { r with duration := s.duration })) ∧
        (∀ i w, i < 64 → ({ r with duration := s.duration } : Response).words[i]? = some w → getN u.hmbx.rsp i 0 = w)) ∧
      ∀ n, n < r.data.length → r.data.length ≤ 63 → s.romSet = false → s.noCopies → s.memc.injGo = true → s.memc.injKind = 4 →
        16 * s.memc.injAddr.toNat = rspBuffer + 16 * n → ∃ u, ends [.mem, .osti, .memc] 0x0A (BitVec.ofNat 8 n) u ∧
          ∀ c, h.cur = some c → ∃ x, u.hmbx.stored = some (c.crc, x) ∧ x.data = r.data.take n) ∧
    (h.busy = true → h.prepared = none →
      (s.headerCrcOk = false → ∃ u, ends [] 0x01 0 u ∧ u.hmbx.stored = h.stored) ∧
      (s.headerCrcOk = true → ∀ crc r, h.stored = some (crc, r) → r.tag = k.tag →
        (crc = k.crc → still r → ∃ u, ends [] r.code r.detail u ∧ u.hmbx.stored = h.stored ∧
          getN u.hmbx.cnt 1 0 = getN h.cnt 1 0 + 1) ∧
        (crc ≠ k.crc → ∃ u, ends [] 0x0C 0 u ∧ u.hmbx.stored = h.stored)) ∧
      (s.headerCrcOk = true → (∀ x, h.stored = some x → x.2.tag ≠ k.tag) → k.opcode.toNat ∉ opcodes → ∃ u, ends [] 0x02 0 u))

/-! ## The Drunor 3 command set (12) -/

/-- What Drunor does for information, the Governor, channels, the journal, time and the pair (R303, R305, R310 to R312, R326, Tables
12-6, 12-8, 12-9). The row of the opcode in progress prepares its response, with OK and its data where its conditions hold, and otherwise
with the status and detail of the first that fails and no data; the command is recorded as in progress; with no command in
progress these rows do nothing. Completes: getInfo, getBootRecord, readConfigDigest, pairStatus, arm, disarm, permitStage, permitConfirm,
clearFermata, channelCommand, readChannels, readSummary, readJournal, setTimeSlew, setTimeStep. -/
def Obligations.DrunorCommandResults : Prop :=
  ∀ s : State,
    let rows := [Instr.getInfo, .getBootRecord, .readConfigDigest, .pairStatus, .arm, .disarm, .permitStage, .permitConfirm, .clearFermata,
      .channelCommand, .readChannels, .readSummary, .readJournal, .setTimeSlew, .setTimeStep]
    (s.hmbx.cur = none ∨ s.hmbx.busy = false → ∀ i ∈ rows, exec i s = .next s) ∧
    ∀ c : CurCmd, s.hmbx.cur = some c → s.hmbx.busy = true → s.hmbx.prepared = none → s.hmbx.inProgress = none →
      s.rst.drunor = true ∨ s.romSet = true → s.stewardUp = true → s.precheck = .execute →
      let g := s.gov
      let w0 := s.param 0
      let t := s.onHmbx (fun x => { x with inProgress := some c })
      let reply (u : State) (code detail : Byte) (data : List Native) : Prop :=
        u.hmbx.prepared = some ⟨c.tag, c.opcode, code, detail, data, 0⟩ ∧ u.hmbx.inProgress = some c ∧ u.hmbx.busy = true
      let answers (i : Instr) (code detail : Byte) (data : List Native) : Prop :=
        ∃ u, exec i s = .next u ∧ reply u code detail data ∧ s.changesOnly [.hmbx] u
      let active := g.state = .armed ∨ g.state = .permitted
      let inTime (at' : Time) := s.metr.lineTime.toNat - at'.toNat ≤ 500 * Config.ticksPerMs
      (∀ p ∈ ([(1, .getInfo), (2, .getBootRecord), (0x12, .readConfigDigest), (0xA0, .pairStatus), (0x20, .arm), (0x21, .disarm),
          (0x22, .permitStage), (0x23, .permitConfirm), (0x60, .clearFermata), (0x30, .channelCommand), (0x31, .readChannels),
          (0x32, .readSummary), (0x40, .readJournal), (0x50, .setTimeSlew), (0x50, .setTimeStep)] : List (BitVec 16 × Instr)),
        c.opcode ≠ p.1 → exec p.2 s = .next s) ∧
      (c.opcode = 0x01 → answers .getInfo 0 0 s.infoWords) ∧
      (c.opcode = 0x02 → answers .getBootRecord 0 0 s.bootWords) ∧
      (c.opcode = 0x12 → answers .readConfigDigest 0 0 (digestWords s.drunor.digest ++
        [place 128 0 s.drunor.commits ||| place 128 32 (BitVec.ofNat 32 s.drunor.cfg.length)])) ∧
      (c.opcode = 0xA0 → answers .pairStatus 0 0 [s.pairStatus]) ∧
      (c.opcode = 0x20 → (g.state ≠ .disarmed → answers .arm 0x05 1 []) ∧
        (g.state = .disarmed → (s.mirl.conflict = true → answers .arm 0x0F 4 []) ∧
          (s.mirl.conflict = false → s.mirl.linkUp = true → s.mirl.peerHello.isSome = true → s.mirl.versionOk = true →
            s.mirl.digestMatch = false → answers .arm 0x0F 2 []) ∧
          (s.mirl.conflict = false → s.mirl.linkUp = false ∨ s.mirl.digestMatch = true →
            (s.armIn = false → ∃ u, exec .arm s = .next u ∧ reply u 0x06 2 [] ∧ u.gov.state = .disarmed) ∧
            (s.armIn = true → g.hasCommit = true → g.commitWin = false → armAllowed s.rst.lc = true →
              ∃ u, exec .arm s = .next u ∧ reply u 0 0 [u.govWord] ∧ u.gov.state = .armed ∧ u.mem = s.mem)))) ∧
      (c.opcode = 0x21 → ∃ u, exec .disarm s = .next u ∧ u.mem = s.mem ∧ u.core = s.core ∧
        (active → u.gov.state = .disarmed ∧ u.gov.epoch = 0 ∧ u.gov.zone = 0 ∧ reply u 0 0 [0]) ∧
        (g.state = .disarmed → u.gov.state = .disarmed ∧ reply u 0 0 [u.govWord]) ∧
        (g.state = .fermata → u.gov.state = .fermata ∧ reply u 0x06 1 [])) ∧
      (c.opcode = 0x22 → (¬ active → answers .permitStage 0x05 1 []) ∧
        (active → (s.mirl.observer = true → answers .permitStage 0x0F 6 []) ∧
          (s.mirl.observer = false → ∃ u, exec .permitStage s = .next u ∧ u.gov.nonce = field w0 0 32 ∧ u.gov.state = g.state ∧
            (s.armIn = false → reply u 0x06 2 [] ∧ u.gov.stage = g.stage) ∧
            (s.armIn = true → reply u 0 0 [place 128 0 s.metr.lineTime] ∧
              u.gov.stage = some (s.metr.lineTime, field w0 0 32)) ∧ s.changesOnly [.snaps, .hmbx, .gov, .mirl] u))) ∧
      (c.opcode = 0x23 → (¬ active → answers .permitConfirm 0x05 1 []) ∧
        (active → (s.formed = true → s.rst.opt.role = .b → answers .permitConfirm 0x0F 7 []) ∧
          (s.formed = true → s.rst.opt.role = .a → ∀ at' e, g.stage = some (at', field w0 0 32) → inTime at' → s.armIn = true →
            s.mirl.proposed = some (e, field w0 0 32, true) → ∃ u, exec .permitConfirm s = .next u ∧ u.hmbx.prepared = none ∧
              u.mirl.going = some (e, field w0 0 32, s.switchInstant, false) ∧ u.gov.state = g.state) ∧
          (s.formed = false → (g.stage = none → ∃ u, exec .permitConfirm s = .next u ∧ reply u 0x06 4 [] ∧ u.gov.state = g.state) ∧
            ∀ at' n, g.stage = some (at', n) →
              (¬ inTime at' → ∃ u, exec .permitConfirm s = .next u ∧ reply u 0x06 4 [] ∧ u.gov.state = g.state) ∧
              (inTime at' → n ≠ field w0 0 32 → ∃ u, exec .permitConfirm s = .next u ∧ reply u 0x06 3 [] ∧ u.gov.state = g.state) ∧
              (inTime at' → n = field w0 0 32 → s.armIn = false →
                ∃ u, exec .permitConfirm s = .next u ∧ reply u 0x06 2 [] ∧ u.gov.state = g.state) ∧
              (inTime at' → n = field w0 0 32 → s.armIn = true → ∃ u, exec .permitConfirm s = .next u ∧
                reply u 0 0 [place 128 0 n ||| place 128 32 s.ownNext] ∧ u.gov.state = .permitted ∧ u.gov.epoch = s.ownNext ∧
                u.gov.stage = none ∧ u.mem = s.mem ∧ u.core = s.core)))) ∧
      (c.opcode = 0x60 → (g.state ≠ .fermata → answers .clearFermata 0x05 1 []) ∧
        (g.state = .fermata → s.rst.coda = false →
          (s.causesClear = false → ∃ u, exec .clearFermata s = .next u ∧ reply u 0x06 6 [] ∧ u.gov.state = .fermata) ∧
          (s.causesClear = true → (s.aon.armCycle && s.armIn) = false →
            ∃ u, exec .clearFermata s = .next u ∧ reply u 0x06 7 [] ∧ u.gov.state = .fermata) ∧
          (s.causesClear = true → (s.aon.armCycle && s.armIn) = true →
            ∃ u, exec .clearFermata s = .next u ∧ reply u 0 0 [u.govWord] ∧ u.gov.state = .armed ∧ u.aon.latch = false))) ∧
      (c.opcode = 0x30 → let n := (field w0 0 4 : BitVec 4).toNat
        (n = 0 ∨ n = 15 → answers .channelCommand 0x04 0 []) ∧
        (n ≠ 0 → n ≠ 15 → ∃ u data, exec .channelCommand s = .next u ∧ reply u 0 0 [data]) ∧
        (n = 1 → let r := t.intakeSteward ((field w0 64 4 : BitVec 4).setWidth 6) (putField (s.param 1) 80 (4 : BitVec 4)) false
          ∃ u, exec .channelCommand s = .next u ∧ reply u 0 0 [place 128 0 (BitVec.ofNat 8 r.2)] ∧ u.gov = r.1.gov ∧ u.trk = r.1.trk ∧
            u.hub = r.1.hub ∧ u.core = r.1.core ∧ u.mem = r.1.mem)) ∧
      (c.opcode = 0x31 → let first := (field w0 0 17 : BitVec 17).toNat
        let what := (field w0 20 4 : BitVec 4).toNat
        let count := (field w0 24 8 : Byte).toNat
        (s.metr.judged = none ∨ s.cres.season = .winter → answers .readChannels 0x05 2 []) ∧
        ∀ j, s.metr.judged = some j → s.cres.season ≠ .winter →
          let places := readPlaces j.buf (what == 1) first count
          (1 < what ∨ 131072 < first + count ∨ 62 < places.length → answers .readChannels 0x04 0 []) ∧
          (what ≤ 1 → first + count ≤ 131072 → places.length ≤ 62 → ∃ u top data, exec .readChannels s = .next u ∧
            reply u 0 0 (top :: data) ∧ (field top 0 16 : BitVec 16) = j.frame ∧ data.length = places.length ∧
            (∀ i l, places[i]? = some l → data[i]? = some (if (s.peekWord l).2 then 0 else (s.peekWord l).1) ∧
              top.getLsbD (64 + i) = (s.peekWord l).2) ∧ u.mem = s.mem ∧ u.gov = s.gov ∧ u.trk = s.trk ∧ u.metr = s.metr)) ∧
      (c.opcode = 0x32 → answers .readSummary 0 0 s.summaryWords) ∧
      (c.opcode = 0x40 → let n := (field w0 32 6 : BitVec 6).toNat
        let oldest : Word := match s.drunor.journal with | e :: _ => field e 0 32 | [] => s.drunor.nextSeq
        (n = 0 ∨ n = 63 → answers .readJournal 0x04 0 []) ∧
        (n ≠ 0 → n ≠ 63 → answers .readJournal 0 0 ((place 128 0 oldest ||| place 128 32 s.drunor.nextSeq) ::
          (s.drunor.journal.filter (fun e => decide ((field w0 0 32 : Word).toNat ≤ entrySeq e) &&
            decide (oldest.toNat ≤ entrySeq e))).take n))) ∧
      (c.opcode = 0x50 → w0.getLsbD 0 = false → exec .setTimeStep s = .next s ∧
        (s.rst.opt.role = .b → answers .setTimeSlew 0x05 4 []) ∧
        (s.rst.opt.role ≠ .b → ∃ u, exec .setTimeSlew s = .next u ∧ reply u 0 0 [place 128 0 s.metr.lineTime] ∧
          u.metr = { s.metr with ltAdj := field w0 64 32 } ∧ s.changesOnly [.snaps, .hmbx, .metr] u)) ∧
      (c.opcode = 0x50 → w0.getLsbD 0 = true → exec .setTimeSlew s = .next s ∧
        (s.rst.opt.role = .b → answers .setTimeStep 0x05 4 []) ∧
        (s.rst.opt.role ≠ .b → ∃ u, exec .setTimeStep s = .next u ∧
          (s.mayStep = false → reply u 0x05 5 [] ∧ u.metr.lineTime = s.metr.lineTime ∧ u.metr.stepRefused = true ∧
            s.changesOnly [.snaps, .hmbx, .metr] u) ∧
          (s.mayStep = true → reply u 0 0 [place 128 0 (field w0 64 64 : Time)] ∧ u.metr.lineTime = field w0 64 64 ∧
            u.mem = s.mem ∧ u.trk = s.trk)))

/-- What Drunor does for the configuration image, diagnostics, firmware and resets (R306 to R309, R313 to R315, R326, R343): chunks
extend a staging area in sequence, COMMIT_CONFIG commits a whole image with the expected digest or names the first check that
fails, RUN_DIAG asks the block it names, an update replaces the inactive slot alone, LOAD_APP seals the eligible Voices, waking those that
sleep first, and a reset is asked for 1 ms after DONE. (The model's choices: logs 37, 38.) Completes: loadConfigChunk, commitConfig,
runDiagBist, runDiagVoiceReturn, runDiagFaultInject, runDiagMemInject, runDiagRelink, fwUpdateBegin, fwUpdateData, fwUpdateEnd, loadApp,
resetDevice, resetDevicePeer, deferredResetRequest. -/
def Obligations.DrunorServiceResults : Prop :=
  ∀ s : State,
    let rows := [Instr.loadConfigChunk, .runDiagBist, .runDiagVoiceReturn, .runDiagFaultInject, .runDiagMemInject, .runDiagRelink,
      .fwUpdateBegin, .fwUpdateData, .fwUpdateEnd 0, .loadApp, .resetDevice, .resetDevicePeer]
    (s.hmbx.cur = none ∨ s.hmbx.busy = false → ∀ i ∈ rows, exec i s = .next s) ∧
    (s.hmbx.resetLater = none ∨ s.hmbx.done = false → exec .deferredResetRequest s = .next s) ∧
    (∀ l, s.hmbx.resetLater = some l → s.hmbx.done = true → s.hmbx.busy = false → l = .l1 ∨ l = .l2 → s.rst.seq = none →
      s.rst.optionHold = false → s.rst.fuses.reach[(4 : Fin 10)] = 0 → ∃ u, exec .deferredResetRequest s = .next u ∧
        u.hmbx.resetLater = none ∧ u.rst.requests = s.rst.requests ++ [⟨4, l, 0, false⟩] ∧
        (s.metr.lineTime.toNat + Config.ticksPerMs < 2 ^ 64 →
          u.metr.lineTime = s.metr.lineTime + BitVec.ofNat 64 Config.ticksPerMs) ∧
        s.changesOnly [.snaps, .hmbx, .rst, .hdr, .core, .unis, .gov, .hub, .metr] u ∧
        (s.noDeadline (s.metr.lineTime + BitVec.ofNat 64 Config.ticksPerMs) → s.changesOnly [.snaps, .hmbx, .rst, .metr, .core] u)) ∧
    (s.hmbx.cur = none → s.rst.opt.role ≠ .b → ∀ p, exec (.commitConfig p) s = .next s) ∧
    ∀ c : CurCmd, s.hmbx.cur = some c → s.hmbx.busy = true → s.hmbx.prepared = none → s.hmbx.inProgress = none →
      s.rst.drunor = true ∨ s.romSet = true → s.stewardUp = true → s.precheck = .execute →
      let d := s.drunor
      let w0 := s.param 0
      let off := (field w0 0 32 : Word).toNat
      let total := (field w0 32 32 : Word).toNat
      let bs := s.paramBytes 16 (c.length - 16)
      let kind := (field w0 0 8 : Byte)
      let n := (field w0 8 2 : BitVec 2).toNat
      let level := (field w0 0 2 : BitVec 2)
      let reply (u : State) (code detail : Byte) (data : List Native) : Prop :=
        u.hmbx.prepared = some ⟨c.tag, c.opcode, code, detail, data, 0⟩ ∧ u.hmbx.inProgress = some c
      let answers (i : Instr) (code detail : Byte) (data : List Native) : Prop :=
        ∃ u, exec i s = .next u ∧ reply u code detail data ∧ s.changesOnly [.hmbx] u
      let stages (i : Instr) (data : List Native) (d' : Drunor) : Prop :=
        ∃ u, exec i s = .next u ∧ reply u 0 0 data ∧ u.drunor = d' ∧ s.changesOnly [.hmbx, .drunor] u
      let held (xs : List Byte) : List Native := [place 128 0 (BitVec.ofNat 32 xs.length)]
      let notB := s.formed = false ∨ s.rst.opt.role ≠ .b
      (c.opcode = 0x10 → (s.formed = true → s.rst.opt.role = .b → answers .loadConfigChunk 0x0F 7 []) ∧
        (notB → maxImage < total → answers .loadConfigChunk 0x04 0 []) ∧
        (notB → total ≤ maxImage → (off = 0 → total < bs.length → answers .loadConfigChunk 0x0D 2 []) ∧
          (off = 0 → bs.length ≤ total → stages .loadConfigChunk (held bs) { d with cfgTotal := total, cfg := bs }) ∧
          (off ≠ 0 → off ≠ d.cfg.length → answers .loadConfigChunk 0x0D 1 []) ∧
          (off ≠ 0 → off = d.cfg.length → total ≠ d.cfgTotal ∨ total < off + bs.length → answers .loadConfigChunk 0x0D 2 []) ∧
          (off ≠ 0 → off = d.cfg.length → total = d.cfgTotal → off + bs.length ≤ total →
            stages .loadConfigChunk (held (d.cfg ++ bs)) { d with cfg := d.cfg ++ bs }))) ∧
      (c.opcode = 0x11 → ∀ p : Vector Plan 16, (s.formed = true → s.rst.opt.role = .b → answers (.commitConfig p) 0x0F 7 []) ∧
        (notB → s.quiet = false → answers (.commitConfig p) 0x05 1 []) ∧
        (notB → s.quiet = true → (d.cfg = [] ∨ d.cfg.length ≠ d.cfgTotal → answers (.commitConfig p) 0x07 1 []) ∧
          (d.cfg ≠ [] → d.cfg.length = d.cfgTotal → sha256 d.cfg ≠ digestOfBytes (s.paramBytes 0 32) →
            answers (.commitConfig p) 0x07 2 []) ∧
          (d.cfg ≠ [] → d.cfg.length = d.cfgTotal → sha256 d.cfg = digestOfBytes (s.paramBytes 0 32) → 
            let parsed := cfgRecords (d.cfg.length / 16 + 1) (wordsOfBytes d.cfg.length d.cfg)
            (d.cfg.length % 16 ≠ 0 ∨ parsed = none → answers (.commitConfig p) 0x07 3 []) ∧
            ∀ rs, d.cfg.length % 16 = 0 → parsed = some rs →
              (cfgWellFormed rs s.inPair = false → answers (.commitConfig p) 0x07 3 []) ∧
              (cfgWellFormed rs s.inPair = true → rangesOk (wordsOf rs 3) rs = false → answers (.commitConfig p) 0x07 4 []) ∧
              (cfgWellFormed rs s.inPair = true → rangesOk (wordsOf rs 3) rs = true →
                plansOk (validRanges (wordsOf rs 3)) p rs s.commitMask = false → answers (.commitConfig p) 0x07 5 []) ∧
              (cfgWellFormed rs s.inPair = true → rangesOk (wordsOf rs 3) rs = true →
                plansOk (validRanges (wordsOf rs 3)) p rs s.commitMask = true → (∀ w ∈ wordsOf rs 4, w &&& clampMask = w) →
                s.mirl.linkUp = false → ∃ u, exec (.commitConfig p) s = .next u ∧ reply u 0 0 u.commitWords ∧
                  u.drunor.digest = sha256 d.cfg ∧ u.drunor.commits = d.commits + 1 ∧ u.gov.result = 0 ∧ u.gov.hasCommit = true ∧
                  u.gov.commitWin = false)))) ∧
      (c.opcode = 0x70 → kind = 1 → let allowed := s.rst.lc = .factory ∨ s.rst.lc = .develop ∨ s.rst.lc = .retired
        (¬ allowed → answers .runDiagBist 0x05 3 []) ∧ (allowed → s.gov.state ≠ .disarmed → answers .runDiagBist 0x05 1 []) ∧
        (allowed → s.gov.state = .disarmed → ∃ u, exec .runDiagBist s = .next u ∧ reply u 0 0 [] ∧
          u.rst = { s.rst with bistSlices := field w0 8 8 } ∧ s.changesOnly [.snaps, .hmbx, .rst] u)) ∧
      (c.opcode = 0x70 → kind = 2 → ∀ v : Vc, v.val = n →
        (2 ≤ s.unis.out[v].count.toNat → answers .runDiagVoiceReturn 0x04 0 []) ∧
        (s.unis.out[v].count.toNat < 2 → ∃ u, exec .runDiagVoiceReturn s = .next u ∧
          u.unis = { s.unis with returnReq := putBit s.unis.returnReq n true } ∧ u.hmbx.prepared = none ∧
          u.hmbx.inProgress = some c ∧ s.changesOnly [.hmbx, .unis] u)) ∧
      (c.opcode = 0x70 → kind = 3 → let src := (field w0 16 6 : BitVec 6)
        (60 ≤ src.toNat → answers .runDiagFaultInject 0x04 0 []) ∧
        (src.toNat < 60 → s.rst.lc = .deployed → s.gov.state ≠ .disarmed → answers .runDiagFaultInject 0x05 1 []) ∧
        (src.toNat < 60 → s.rst.lc ≠ .deployed ∨ s.gov.state = .disarmed → ∀ f, FaultSource.ofId src.toNat = some f →
          ∃ u, exec .runDiagFaultInject s = .next u ∧ reply u 0 0 [] ∧ u.hub.injSrc = src ∧
            u.hub.pending = s.hub.pending ++ [⟨f, 0, 0⟩] ∧ s.changesOnly [.snaps, .hmbx, .hub] u)) ∧
      (c.opcode = 0x70 → kind = 4 → ∃ u, exec .runDiagMemInject s = .next u ∧ reply u 0 0 [] ∧
        u.memc.injKind = field w0 16 3 ∧ u.memc.injAddr = field w0 68 28 ∧ u.memc.injBit = field w0 96 7 ∧
        u.memc.injAbit = field w0 104 5 ∧ u.memc.injGo = true ∧ u.memc.cnt = s.memc.cnt ∧ s.changesOnly [.snaps, .hmbx, .memc] u) ∧
      (c.opcode = 0x70 → kind = 5 → ∀ q : TrkId, q.val = (field w0 8 4 : BitVec 4).toNat →
        (s.gov.zone.getLsbD q.val = true → answers .runDiagRelink 0x05 1 []) ∧
        (s.gov.zone.getLsbD q.val = false → ∃ u, exec .runDiagRelink s = .next u ∧ reply u 0 0 [] ∧
          u.trk = (s.trkRelink q).trk ∧ u.mem = s.mem ∧ u.gov = (s.trkRelink q).gov)) ∧
      (c.opcode = 0x80 → (s.quiet = false → answers .fwUpdateBegin 0x05 1 []) ∧
        (s.quiet = true → maxImage < total → answers .fwUpdateBegin 0x04 0 []) ∧
        (s.quiet = true → total ≤ maxImage →
          stages .fwUpdateBegin [] { d with fwKind := some (w0.getLsbD 0), fwTotal := total, fw := [] })) ∧
      (c.opcode = 0x81 → (s.quiet = false → answers .fwUpdateData 0x05 1 []) ∧
        (s.quiet = true → (d.fwKind = none → answers .fwUpdateData 0x0D 3 []) ∧
          (d.fwKind ≠ none → (off ≠ d.fw.length → answers .fwUpdateData 0x0D 1 []) ∧
            (off = d.fw.length → d.fwTotal < off + bs.length → answers .fwUpdateData 0x0D 2 []) ∧
            (off = d.fw.length → off + bs.length ≤ d.fwTotal →
              stages .fwUpdateData (held (d.fw ++ bs)) { d with fw := d.fw ++ bs })))) ∧
      (c.opcode = 0x82 → ∀ f : BitVec 2, (s.quiet = false → answers (.fwUpdateEnd f) 0x05 1 []) ∧
        (s.quiet = true → let fails (code detail : Byte) : Prop := ∃ u, exec (.fwUpdateEnd f) s = .next u ∧ reply u code detail [] ∧
            u.drunor = { d with fwKind := none, fw := [] } ∧ s.changesOnly [.hmbx, .drunor] u
          (d.fwKind = none → answers (.fwUpdateEnd f) 0x0D 3 []) ∧
          (d.fwKind = some true → (∀ e, s.imageFailure d.fw true = some e → fails 0x08 e) ∧
            (s.imageFailure d.fw true = none → ∃ u, exec (.fwUpdateEnd f) s = .next u ∧ reply u 0 0 [imageWord d.fw] ∧
              u.drunor.appStaged = some d.fw ∧ u.drunor.fwKind = none ∧ u.mem = s.mem ∧ u.rst = s.rst)) ∧
          (d.fwKind = some false → (∀ e, s.slotFailure d.fw = some e → fails 0x08 e) ∧
            (s.slotFailure d.fw = none → (s.hmbx.bootWait = true → ∃ u, exec (.fwUpdateEnd f) s = .next u ∧
                reply u 0 0 [imageWord d.fw] ∧ u.hmbx.bootWait = false ∧ u.rst.activeSeq = imgSeq d.fw ∧ u.mirl.download = d.fw ∧
                u.mem.flashA = s.mem.flashA ∧ u.mem.flashB = s.mem.flashB) ∧
              (s.hmbx.bootWait = false → imgSeq d.fw ≤ s.rst.activeSeq → fails 0x04 0) ∧
              (s.hmbx.bootWait = false → ¬ imgSeq d.fw ≤ s.rst.activeSeq → ∃ u, exec (.fwUpdateEnd f) s = .next u ∧
                (f ≠ 0 → reply u 0x09 (f.setWidth 8) []) ∧ (f = 0 → reply u 0 0 [imageWord d.fw]) ∧
                (s.rst.bootRec.slotB = true → u.mem.flashB = s.mem.flashB ∧ (f = 0 → u.mem.flashA = d.fw)) ∧
                (s.rst.bootRec.slotB = false → u.mem.flashA = s.mem.flashA ∧ (f = 0 → u.mem.flashB = d.fw)) ∧
                (∀ x : Cl, u.mem.itcm[x] = s.mem.itcm[x] ∧ u.mem.dtcm[x] = s.mem.dtcm[x]) ∧ u.mem.chord = s.mem.chord))))) ∧
      (c.opcode = 0x90 → (s.rst.lc = .blank ∨ s.rst.lc = .retired → answers .loadApp 0x0E 2 []) ∧
        (s.rst.lc ≠ .blank → s.rst.lc ≠ .retired → (s.gov.state ≠ .disarmed → answers .loadApp 0x05 1 []) ∧
          (s.gov.state = .disarmed → (s.cres.season ≠ .winter → answers .loadApp 0x05 2 []) ∧
            (s.cres.season = .winter → (s.appSource = none → answers .loadApp 0x0D 3 []) ∧
              ∀ xs, s.appSource = some xs → (∀ e, s.imageFailure xs true = some e → answers .loadApp 0x08 e []) ∧
                (s.imageFailure xs true = none → (∃ v : Vc, s.eligible v = true ∧ s.clockable (rqVoice v) = false) →
                  ∃ u, exec .loadApp s = .next u ∧ u.hmbx = s.hmbx ∧ s.changesOnly [.cres] u) ∧
                (s.imageFailure xs true = none → (∀ v : Vc, s.eligible v = true → s.clockable (rqVoice v) = true) →
                  ∃ u, exec .loadApp s = .next u ∧ reply u 0 0 [place 128 0 u.rst.sealed] ∧
                  (∀ v : Vc, u.rst.sealed.getLsbD v.val = (s.rst.sealed.getLsbD v.val || s.eligible v)) ∧
                  u.rst.appVersion = imgField 64 xs 0x18 8 ∧ u.mem.itcm[stw] = s.mem.itcm[stw] ∧
                  (∀ v : Vc, s.eligible v = false → u.mem.itcm[vcl v] = s.mem.itcm[vcl v])))))) ∧
      (c.opcode = 0xF0 → w0.getLsbD 8 = false → exec .resetDevicePeer s = .next s ∧
        (level = 1 ∨ level = 2 → ∃ u, exec .resetDevice s = .next u ∧ reply u 0 0 [] ∧
          u.hmbx.resetLater = some (if level = 1 then .l1 else .l2) ∧ s.changesOnly [.hmbx] u) ∧
        (level = 0 ∨ level = 3 → answers .resetDevice 0x04 0 [])) ∧
      (c.opcode = 0xF0 → w0.getLsbD 8 = true → exec .resetDevice s = .next s ∧
        (level = 0 ∨ level = 3 → answers .resetDevicePeer 0x04 0 []) ∧
        (level = 1 ∨ level = 2 → (∀ e, s.peerRefusal = some e → answers .resetDevicePeer 0x0F e []) ∧
          (s.peerRefusal = none → ∃ u, exec .resetDevicePeer s = .next u ∧ reply u 0 0 [] ∧
            u.mirl = { s.mirl with txq := s.mirl.txq ++ [.resetReq level] } ∧ s.changesOnly [.hmbx, .mirl] u)))

/-! ## The Mirror Link and the pair (13) -/

/-- The link's numbering, acknowledgement and state (R320 to R324, R330, R342): ACK and NAK sets leave first, then retransmissions, then
the queued packet of the lowest rank while at most 16 are unacknowledged; an acknowledgement frees every packet up to its SEQ; a
NAK and the timeout send again; a repeated packet is acknowledged and dropped, a gap is answered with one NAK, the next packet is
accepted. A retrain restarts SEQ and makes unacknowledged DELTA words dirty again; a RELINK written while one runs is held (R14);
LINK_LOST leaves the pair and reports PAIR_LINK. Completes: mirlEnable, mirlRelink, mirlRetrain, mirlLinkUp, mirlLinkLost,
mirlPacketTransmit, mirlAck, mirlNak, mirlRetxTimeout, mirlCrcError, deltaAckTimeout, syncTimeout. -/
def Obligations.MirrorLinkResults : Prop :=
  ∀ s : State,
    let m := s.mirl
    let idle (i : Instr) : Prop := exec i s = .next s
    let turns (i : Instr) (m' : Mirl) : Prop := exec i s = .next (s.onMirl (fun _ => m'))
    let written (i : Instr) : Prop := exec i s = .next (s.stewWrite blkMirl)
    (s.rst.opt.role = .solo → ∀ on, written (.mirlEnable on)) ∧
    (s.rst.opt.role ≠ .solo → (∃ u, exec (.mirlEnable true) s = .next u ∧ u.mirl = { m with enable := true } ∧
        (m.enable = false → rqMirl ∈ u.cres.grants ∨ ∃ w ∈ u.cres.waiting, w.id = rqMirl) ∧ s.changesOnly [.snaps, .mirl, .cres] u) ∧
      (∃ u, exec (.mirlEnable false) s = .next u ∧
        u.mirl = { m with enable := false, linkUp := false, relink := false, relinkHeld := false } ∧
        s.changesOnly [.snaps, .mirl, .cres] u)) ∧
    (m.enable = false → written .mirlRelink ∧ idle .mirlRetrain ∧ idle .mirlLinkUp ∧ idle .mirlLinkLost ∧ idle .mirlRetxTimeout ∧
      idle .mirlPacketTransmit ∧ idle .mirlCrcError ∧ idle .deltaAckTimeout ∧ (∀ q, idle (.mirlAck q) ∧ idle (.mirlNak q))) ∧
    (m.enable = true →
      (m.relink = true → ∃ u, exec .mirlRelink s = .next u ∧ u.mirl = { m with relinkHeld := true } ∧ s.changesOnly [.snaps, .mirl] u) ∧
      (∀ i ∈ [Instr.mirlRelink, .mirlRetrain], i = .mirlRetrain ∨ m.relink = false → ∃ u, exec i s = .next u ∧ u.mirl.linkUp = false ∧ u.mirl.nextSeq = 0 ∧
        u.mirl.lastSeq = 0xFF ∧ u.mirl.unacked = [] ∧ u.mirl.resend = 0 ∧ u.mirl.ackq = [] ∧ u.mirl.session = none ∧
        u.mirl.pair = m.pair ∧ u.mirl.peer = m.peer ∧ (∀ p ∈ m.unacked, ∀ k ∈ deltaWords p.2, k ∈ u.mirl.dirty) ∧
        (∀ k ∈ m.dirty, k ∈ u.mirl.dirty) ∧ (∀ p ∈ u.mirl.txq, p.kept = true) ∧ u.mirl.relink = (m.relink || i == .mirlRelink) ∧
        s.changesOnly [.snaps, .mirl] u) ∧
      (m.linkUp = false → s.rst.opt.role ≠ .solo → m.relinkHeld = true → ∃ u, exec .mirlLinkUp s = .next u ∧ u.mirl.linkUp = false ∧
        u.mirl.relinkHeld = false ∧ u.mirl.relink = m.relink ∧ s.changesOnly [.mirl] u) ∧
      (m.linkUp = false → s.rst.opt.role ≠ .solo → m.relinkHeld = false → ∃ u, exec .mirlLinkUp s = .next u ∧ u.mirl.linkUp = true ∧
        u.mirl.peer = true ∧ u.mirl.relink = false ∧
        u.mirl.pair = (if m.pair = .down ∨ m.pair = .solo then .handshake else m.pair) ∧ u.mirl.event.getLsbD 0 = true ∧
        s.helloPacket ∈ u.mirl.txq ∧ u.gov = s.gov ∧ u.mem = s.mem ∧ u.metr = s.metr) ∧
      (m.linkUp = true → idle .mirlLinkUp) ∧
      (m.linkUp = true ∨ m.peer = true → s.drunor.awaitPeer = false → ∃ u, exec .mirlLinkLost s = .next u ∧ u.mirl.linkUp = false ∧
        u.mirl.peer = false ∧ u.mirl.session = none ∧ u.mirl.pair = (if m.pair = .conflict then .conflict else .solo) ∧
        u.mirl.soloPending = (m.soloPending || s.formed) ∧ u.mirl.event.getLsbD 1 = true ∧ u.mirl.event.getLsbD 2 = true ∧
        u.hub.pending = s.hub.pending ++ [⟨.pairLink, 0, 0⟩] ∧ s.changesOnly [.mirl, .hub, .core, .cres] u) ∧
      (m.linkUp = false → m.peer = false → idle .mirlLinkLost) ∧
      (∀ q i d ws f, (q, Packet.delta i d ws f) ∈ m.unacked → s.drunor.awaitPeer = false → ∃ u, exec .deltaAckTimeout s = .next u ∧
        u.mirl.linkUp = false ∧ u.mirl.peer = false ∧ u.hub.pending = s.hub.pending ++ [⟨.pairLink, 0, 0⟩] ∧ u.mem = s.mem ∧
        u.gov = s.gov) ∧
      (m.unacked = [] → idle .deltaAckTimeout) ∧
      turns .mirlRetxTimeout { m with resend := m.unacked.length } ∧
      (∀ xs q p ys, m.unacked = xs ++ (q, p) :: ys → (∀ x ∈ xs, x.1 ≠ q) →
        turns (.mirlAck q) { m with unacked := ys, resend := min m.resend ys.length } ∧
        turns (.mirlNak q) { m with resend := ys.length + 1 }) ∧
      (∀ q, (∀ x ∈ m.unacked, x.1 ≠ q) → idle (.mirlAck q) ∧ idle (.mirlNak q)) ∧
      (∃ u, exec .mirlCrcError s = .next u ∧ getN u.mirl.cnt 1 0 = getN m.cnt 1 0 + 1 ∧ u.mirl = { m with cnt := u.mirl.cnt } ∧
        s.changesOnly [.mirl, .hdr] u) ∧
      (∀ a rest, m.ackq = a :: rest → turns .mirlPacketTransmit { m with ackq := rest, out := some a }) ∧
      (∀ xs q p ys, m.ackq = [] → m.unacked = xs ++ (q, p) :: ys → m.resend = ys.length + 1 → ∃ u,
        exec .mirlPacketTransmit s = .next u ∧ u.mirl.out = some (.packet q p) ∧ u.mirl.resend = ys.length ∧
        u.mirl.unacked = m.unacked ∧ u.mirl.txq = m.txq ∧ getN u.mirl.cnt 0 0 = getN m.cnt 0 0 + 1 ∧ u.mirl.txPkt = m.txPkt + 1 ∧
        u.mirl.nextSeq = m.nextSeq ∧ s.changesOnly [.mirl, .hdr] u) ∧
      (m.ackq = [] → m.resend = 0 → m.linkUp = true → (m.txq = [] ∨ 16 ≤ m.unacked.length →
          turns .mirlPacketTransmit { m with out := none }) ∧
        (m.txq ≠ [] → m.unacked.length < 16 → ∃ u i p, exec .mirlPacketTransmit s = .next u ∧ m.txq[i]? = some p ∧
          (∀ q ∈ m.txq, p.rank ≤ q.rank) ∧ (∀ j q, j < i → m.txq[j]? = some q → p.rank < q.rank) ∧
          u.mirl.out = some (.packet m.nextSeq (p.stamped s.metr.lineTime)) ∧
          u.mirl.unacked = m.unacked ++ [(m.nextSeq, p.stamped s.metr.lineTime)] ∧ u.mirl.nextSeq = m.nextSeq + 1 ∧
          u.mirl.txPkt = m.txPkt + 1 ∧ (p.sync = false → u.mirl.txq = m.txq.eraseIdx i) ∧ u.mem = s.mem ∧ u.gov = s.gov))) ∧
    (m.session = none → idle .syncTimeout) ∧
    (∀ x, m.session = some x →
      (x.outgoing = false → m.requeued = none → turns .syncTimeout { m with session := none, txq := m.txq.filter (fun p => !p.sync) }) ∧
      (x.outgoing = true → m.linkUp = true → let n := (s.syncObject x.kind).length
        turns .syncTimeout { m with
          session := some ⟨true, x.kind, n, false, wordsOfBytes n (s.syncObject x.kind), 0⟩
          txq := m.txq.filter (fun p => !p.sync) ++ [.syncOpen x.kind (BitVec.ofNat 64 n)] })) ∧
    ∀ (h : PktHdr) (a : BitVec 64) (w0 w1 w2 w3 : Native) (e : Byte) (n : Word) (b : Bool) (t : Time) (ix : BitVec 16) (po : BitVec 64)
      (ws : List Native) (sel : BitVec 2) (k : BitVec 4) (by' : BitVec 64) (sha : BitVec 256),
      ∀ i ∈ [Instr.state h a w0 w1, .hello h w0 w1 w2 w3, .epochPropose h e n, .epochAck h e n b, .epochGo h e n t, .goAck h e n,
          .epochDrop h e, .delta h ix po ws, .sweep h sel t, .journal h ws, .syncOpen h k by', .syncGrant h, .syncData h ix ws,
          .syncEnd h sha, .syncRefuse h, .resetNotice h sel, .resetReq h sel],
        (m.enable = false → idle i) ∧
        (m.enable = true →
          (h.seq = m.lastSeq + 1 → ∃ u, exec i s = .next u ∧ u.mirl.lastSeq = h.seq ∧ u.mirl.gapNaked = false ∧
            u.mirl.rxPkt = m.rxPkt + 1 ∧ u.mirl.ackq = m.ackq ++ [.ack h.seq] ∧ u.mirl.nextSeq = m.nextSeq ∧
            u.mem.itcm = s.mem.itcm ∧ u.mem.dtcm = s.mem.dtcm ∧ u.mem.score = s.mem.score) ∧
          ((m.lastSeq - h.seq).toNat < 128 → ∃ u, exec i s = .next u ∧ u.mirl.ackq = m.ackq ++ [.ack m.lastSeq] ∧
            getN u.mirl.cnt 2 0 = getN m.cnt 2 0 + 1 ∧ u.mirl.lastSeq = m.lastSeq ∧ u.mirl.session = m.session ∧
            u.mirl.txq = m.txq ∧ s.changesOnly [.mirl, .hdr] u) ∧
          (0 < (h.seq - (m.lastSeq + 1)).toNat → (h.seq - (m.lastSeq + 1)).toNat < 16 →
            (m.gapNaked = true → idle i) ∧
            (m.gapNaked = false → ∃ u, exec i s = .next u ∧ u.mirl.ackq = m.ackq ++ [.nak (m.lastSeq + 1)] ∧
              u.mirl.gapNaked = true ∧ u.mirl.lastSeq = m.lastSeq ∧ u.mirl.txq = m.txq ∧
              getN u.mirl.cnt 3 0 = getN m.cnt 3 0 + 1 ∧ s.changesOnly [.mirl, .hdr] u)))

/-- What an accepted packet does, each in order and with no acknowledgement in it (R325 to R347): HELLO is checked by Table 13-3, STATE
records the peer's words and offset, epochs are proposed, acknowledged and confirmed between ARMED Governors and carried from the
switch instant, a DELTA unit merges the stricter LOCKOUT, journal entries are numbered by A, one session runs at a time and its object is
taken only with its SHA-256, a reset request counts only in a formed pair or from an observer's peer. B's Governor confirms only the
epoch that it has acknowledged and that A's EPOCH_GO names (R336), and a longer SWEEP of the peer moves the open frame's boundary with it
(R31). Completes: epochSwitch, state, hello, epochPropose, epochAck, epochGo, goAck, epochDrop, delta, sweep, journal, syncOpen,
syncGrant, syncData, syncEnd, syncRefuse, resetNotice, resetReq. -/
def Obligations.PairResults : Prop :=
  (∀ s : State, (s.mirl.going = none → exec .epochSwitch s = .next s) ∧
    ∀ e n t ok, s.mirl.going = some (e, n, t, ok) → ∃ u, exec .epochSwitch s = .next u ∧ u.mirl.going = none ∧ u.mem = s.mem ∧
      (s.metr.lineTime ≤ t → u.metr.lineTime = t) ∧
      (s.rst.opt.role = .a → ok = true → s.gov.state = .armed ∨ s.gov.state = .permitted →
        u.gov.state = .permitted ∧ u.gov.epoch = e ∧ u.gov.epochHb = e ∧ u.aon.lastEpoch = e) ∧
      (s.rst.opt.role = .a → ok = false ∨ s.gov.state = .disarmed ∨ s.gov.state = .fermata → u.gov.state = s.gov.state ∧
        u.gov.epoch = s.gov.epoch ∧ u.gov.result = 5 ∧ u.gov.stage = none ∧ (s.mirl.linkUp = true → .epochDrop e ∈ u.mirl.txq)) ∧
      (s.rst.opt.role ≠ .a → (s.gov.state = .permitted → u.gov.epoch = e ∧ u.gov.epochHb = e ∧ u.aon.lastEpoch = e) ∧
        (s.gov.state ≠ .permitted → u.gov.state = s.gov.state ∧ u.gov.epoch = s.gov.epoch ∧ u.aon = s.aon ∧
          (s.noDeadline t → u.gov = s.gov)))) ∧
  ∀ (h : PktHdr) (s : State), s.mirl.enable = true → h.seq = s.mirl.lastSeq + 1 → h.ackV = false → s.mirl.linkUp = true →
    let m := s.mirl
    let g := s.gov
    let inTime (at' : Time) := s.metr.lineTime.toNat - at'.toNat ≤ 500 * Config.ticksPerMs
    (∀ a w0 w1, let ns := tickNs (s.exchange a w0)
      m.pair ≠ .handshake → ∃ u, exec (.state h a w0 w1) s = .next u ∧ u.mirl.peerArg = a ∧
      u.mirl.peerArrival = s.metr.lineTime ∧ u.mirl.peerGov = field w0 0 2 ∧ u.mirl.peerEpoch = field w0 8 8 ∧
      u.mirl.peerLast = field w0 16 8 ∧ u.mirl.peerBoundary = some (field w1 0 64, field w1 64 16) ∧ u.mirl.pair = m.pair ∧
      ((field w0 64 64 : Time) = 0 → u.mirl.offset = m.offset ∧ u.hub = s.hub ∧ u.metr = s.metr) ∧
      ((field w0 64 64 : Time) ≠ 0 → u.mirl.offset = BitVec.ofInt 32 ns ∧
        u.hub.pending = s.hub.pending ++
          (if s.formed && m.within 50000 && !decide (ns.natAbs ≤ 50000) then [⟨.pairTime, 0, 0⟩] else []) ∧
        (s.rst.opt.role ≠ .b → u.metr = s.metr)) ∧ u.mem = s.mem ∧ u.gov = g) ∧
    (∀ w0 w1 w2 w3, let theirs : BitVec 64 := field w0 64 64
      let compat := majorOf theirs == majorOf s.rst.drunorVersion && minorOf theirs == minorOf s.rst.drunorVersion &&
        majorOf (field w1 0 64) == majorOf s.rst.appVersion
      let same := helloDigest w2 w3 == s.drunor.digest
      let clash := m.conflict = true ∨ (field w0 0 2 : BitVec 2) = roleNumber s.rst.opt.role
      ∃ u, exec (.hello h w0 w1 w2 w3) s = .next u ∧ u.mirl.peerHello = some (w0, w1, w2, w3) ∧
        (clash → u.mirl.conflict = true ∧ u.mirl.pair = .conflict ∧ ⟨.roleConflict, 0, 0⟩ ∈ u.hub.pending ∧ u.gov = g) ∧
        (¬ clash → compat = false → u.mirl.versionOk = false ∧ u.hub = s.hub ∧ u.gov = g ∧
          (s.rst.opt.role = .b → u.mirl.observer = true ∧ u.mirl.pair = .observer) ∧
          (s.rst.opt.role ≠ .b → u.mirl.observer = m.observer ∧ u.mirl.pair = .solo)) ∧
        (¬ clash → compat = true → same = false → u.mirl.versionOk = true ∧ u.mirl.digestMatch = false ∧
          u.mirl.event.getLsbD 4 = true ∧ u.mirl.pair = (if m.pair = .paired then .paired else .handshake) ∧ u.hub = s.hub) ∧
        (¬ clash → compat = true → same = true → u.mirl.versionOk = true ∧ u.mirl.digestMatch = true ∧ u.mirl.observer = false ∧
          (s.formed = true → u.mirl.pair = .paired) ∧
          (s.formed = false → s.rst.opt.role = .a → (s.aligned = true → u.mirl.pair = .paired ∧ u.mirl.soloPending = false ∧
              (s.rst.drunor = true → u.mirl.mirrorBase = 0x20B)) ∧
            (s.aligned = false → u.mirl.pair = .handshake ∧ ⟨.pairTime, 0, 0⟩ ∈ u.hub.pending)))) ∧
    (∀ e n, ∃ u, exec (.epochPropose h e n) s = .next u ∧ s.changesOnly [.mirl, .hdr] u ∧
      (s.rst.opt.role = .b → u.mirl.proposed = (if s.acksEpoch n then some (e, n, true) else none) ∧
        u.mirl.txq = m.txq ++ [.epochAck e n (!s.acksEpoch n)]) ∧
      (s.rst.opt.role ≠ .b → u.mirl.proposed = m.proposed ∧ u.mirl.txq = m.txq)) ∧
    (∀ e n r, ∃ u, exec (.epochAck h e n r) s = .next u ∧ s.changesOnly [.mirl, .hdr] u ∧
      (∀ x, s.rst.opt.role = .a → m.proposed = some (e, n, x) → u.mirl.proposed = some (e, n, !r) ∧
        u.mirl.ackedEpoch = (if r then m.ackedEpoch else e)) ∧
      (s.rst.opt.role ≠ .a ∨ m.proposed = none → u.mirl.proposed = m.proposed ∧ u.mirl.ackedEpoch = m.ackedEpoch)) ∧
    (∀ e n t, (s.rst.opt.role ≠ .b ∨ s.formed = false → ∃ u, exec (.epochGo h e n t) s = .next u ∧ u.mirl.going = m.going ∧
        s.changesOnly [.mirl, .hdr] u) ∧
      (s.rst.opt.role = .b → s.formed = true →
        (∀ at', g.state = .armed ∨ g.state = .permitted → g.stage = some (at', n) → inTime at' → s.armIn = true →
          m.proposed = some (e, n, true) → ∃ u, exec (.epochGo h e n t) s = .next u ∧ u.gov.state = .permitted ∧ u.gov.epoch = g.epoch ∧ u.gov.echo = n ∧
          u.gov.stage = none ∧ u.gov.result = 0 ∧ u.mirl.going = some (e, n, t, true) ∧ .goAck e n ∈ u.mirl.txq ∧ u.mem = s.mem) ∧
        (g.stage = none ∨ m.proposed ≠ some (e, n, true) → ∃ u, exec (.epochGo h e n t) s = .next u ∧ u.gov.state = g.state ∧
          u.gov.epoch = g.epoch ∧ u.gov.result ≠ 0 ∧ u.mirl.going = none ∧ u.mirl.txq = m.txq))) ∧
    (∀ e n t x, s.rst.opt.role = .a → m.going = some (e, n, t, x) → ∃ u, exec (.goAck h e n) s = .next u ∧ u.gov.state = g.state ∧
      (s.metr.lineTime.toNat + Config.ticksPerMs ≤ t.toNat → u.mirl.going = some (e, n, t, true) ∧ u.gov = g) ∧
      (t.toNat < s.metr.lineTime.toNat + Config.ticksPerMs → u.mirl.going = none ∧ u.gov.result = 5 ∧ u.gov.stage = none ∧
        u.mirl.txq = m.txq ++ [.epochDrop e])) ∧
    (m.going = none → ∀ e n, ∃ u, exec (.goAck h e n) s = .next u ∧ u.mirl.going = none ∧ s.changesOnly [.mirl, .hdr] u) ∧
    (∀ e, (∀ n t x, s.rst.opt.role = .b → m.going = some (e, n, t, x) → ∃ u, exec (.epochDrop h e) s = .next u ∧ u.mirl.going = none ∧
        (g.state = .permitted → u.gov.state = .armed ∧ u.gov.epoch = 0) ∧ (g.state ≠ .permitted → u.gov = g) ∧ u.mem = s.mem) ∧
      (m.going = none → ∃ u, exec (.epochDrop h e) s = .next u ∧ u.gov.state = g.state ∧ u.gov.epoch = g.epoch ∧
        u.gov.pairBlocked = (g.pairBlocked || (decide (g.state = .permitted) && decide (g.epoch = e))) ∧
        s.changesOnly [.mirl, .hdr, .gov] u)) ∧
    (∀ (i : BitVec 16) (w : Native) (p : Bool), i.toNat < 32768 → s.memc.injGo = false →
      let own := s.peekWord ⟨.verdict, i.toNat⟩
      let miss := lockouts w p &&& ~~~ lockouts own.1 own.2
      ∃ u, exec (.delta h i (if p then 1 else 0) [w]) s = .next u ∧
        (own.2 = false → u.peekWord ⟨.verdict, i.toNat⟩ = (own.1 ||| lockMask miss, false)) ∧
        (own.2 = true → u.cell ⟨.verdict, i.toNat⟩ = s.cell ⟨.verdict, i.toNat⟩) ∧
        (∀ j, j < 32768 → j ≠ i.toNat → u.cell ⟨.verdict, j⟩ = s.cell ⟨.verdict, j⟩) ∧
        (miss ≠ 0 → i.toNat ∈ u.mirl.dirty ∧ getN u.mirl.cnt 4 0 = getN m.cnt 4 0 + 1 ∧ u.mirl.event.getLsbD 6 = true) ∧
        u.gov = g ∧ u.trk = s.trk) ∧
    (∀ sel t, let near : Time := BitVec.ofNat 64 (50 * Config.ticksPerUs)
      let moves := ∃ o, s.metr.openAt = some o ∧ s.formed = true ∧ s.metr.sweep < sel ∧ s.metr.nextAt ≤ t + near ∧
        t ≤ o + period sel + near
      (¬ moves → ∃ u, exec (.sweep h sel t) s = .next u ∧ u.mirl.sweepAt = some (sel, t) ∧ s.changesOnly [.mirl, .hdr] u) ∧
      (moves → ∃ u, exec (.sweep h sel t) s = .next u ∧ u.metr.sweep = sel ∧ u.metr.nextAt = t ∧
        (∀ j, s.metr.judged = some j → u.metr.judged = some { j with deadline := t }) ∧ s.changesOnly [.mirl, .hdr, .metr] u)) ∧
    (∀ es, ∃ u, exec (.journal h es) s = .next u ∧ s.changesOnly [.mirl, .hdr, .drunor] u ∧
      (s.rst.drunor = false → u.drunor = s.drunor) ∧
      (s.rst.drunor = true → s.rst.opt.role = .a → u.drunor.nextSeq = s.drunor.nextSeq + BitVec.ofNat 32 es.length ∧
        ∃ ns, ns.length = es.length ∧ (∀ k e, es[k]? = some e → ns[k]? = some (numbered (s.drunor.nextSeq + BitVec.ofNat 32 k) e)) ∧
          u.mirl.txq = m.txq ++ [.journal ns] ∧
          u.drunor.journal = (s.drunor.journal ++ ns).drop ((s.drunor.journal ++ ns).length - 4096)) ∧
      (s.rst.drunor = true → s.rst.opt.role ≠ .a →
        u.drunor.journal = (s.drunor.journal ++ es).drop ((s.drunor.journal ++ es).length - 4096) ∧ u.mirl.txq = m.txq)) ∧
    (∀ k b, ∃ u, exec (.syncOpen h k b) s = .next u ∧
      (sessionOk k b = false → u.mirl.session = m.session ∧ u.mirl.txq = m.txq ++ [.syncRefuse]) ∧
      (sessionOk k b = true → m.session = none →
        u.mirl.session = some ⟨false, k, b.toNat, true, [], 0⟩ ∧ u.mirl.txq = m.txq ++ [.syncGrant]) ∧
      (∀ x, sessionOk k b = true → m.session = some x →
        ((x.outgoing && !x.granted && s.rst.opt.role == .b) = true → u.mirl.session = some ⟨false, k, b.toNat, true, [], 0⟩ ∧
          u.mirl.requeued = some x.kind ∧ getN u.mirl.cnt 5 0 = getN m.cnt 5 0 + 1 ∧ u.mirl.txq = m.txq ++ [.syncGrant]) ∧
        ((x.outgoing && !x.granted && s.rst.opt.role == .b) = false → u.mirl.session = some x ∧
          u.mirl.txq = m.txq ++ [.syncRefuse])) ∧ u.mem = s.mem ∧ u.gov = g) ∧
    (∀ x, m.session = some x →
      (x.outgoing = true → x.granted = false →
        (∃ u, exec (.syncGrant h) s = .next u ∧
          u.mirl.session = some ⟨true, x.kind, x.total, true, x.words, (dataPackets (x.words.length + 1) 0 x.words).length⟩ ∧
          u.mirl.txq = m.txq ++ dataPackets (x.words.length + 1) 0 x.words ++
            [.syncEnd (sha256 (((x.words.map (bytesOf 16)).flatten).take x.total))] ∧ s.changesOnly [.mirl, .hdr] u) ∧
        (∃ u, exec (.syncRefuse h) s = .next u ∧ u.mirl.session = none ∧ u.mirl.requeued = some x.kind ∧
          s.changesOnly [.mirl, .hdr] u)) ∧
      (x.outgoing = false → (∀ w, x.words.length < 65536 → s.memc.injGo = false → ∃ u,
          exec (.syncData h (BitVec.ofNat 16 x.count) [w]) s = .next u ∧
          (x.count < 65536 → u.mirl.session = some { x with words := x.words ++ [w], count := x.count + 1 } ∧
            u.peekWord ⟨.chord, 0x60000 + x.words.length⟩ = (w, false)) ∧ u.gov = g ∧ u.trk = s.trk) ∧
        (∀ ix ws, ix.toNat ≠ x.count → ∃ u, exec (.syncData h ix ws) s = .next u ∧ u.mirl.session = some x ∧
          s.changesOnly [.mirl, .hdr] u) ∧
        (∀ sha, m.requeued = none → let bs := ((x.words.map (bytesOf 16)).flatten).take x.total
          ∃ u, exec (.syncEnd h sha) s = .next u ∧ u.mirl.session = none ∧ u.mem = s.mem ∧
            (bs.length ≠ x.total ∨ sha256 bs ≠ sha → u.drunor = s.drunor ∧ u.mirl.download = m.download) ∧
            (bs.length = x.total → sha256 bs = sha → (x.kind = 1 → u.drunor.cfg = bs ∧ u.drunor.cfgTotal = bs.length) ∧
              (x.kind = 3 → u.mirl.download = bs ∧ u.drunor = s.drunor))))) ∧
    (m.session = none → ∀ i ∈ [Instr.syncGrant h, .syncRefuse h], ∃ u, exec i s = .next u ∧ u.mirl.session = none ∧
      u.mirl.txq = m.txq ∧ s.changesOnly [.mirl, .hdr] u) ∧
    (∀ l : BitVec 2, ∃ u, exec (.resetNotice h l) s = .next u ∧
      u.mirl.noticeAt = (if l = 2 then some s.metr.lineTime else m.noticeAt) ∧ s.changesOnly [.mirl, .hdr] u) ∧
    (∀ l : BitVec 2, ∃ u, exec (.resetReq h l) s = .next u ∧ s.changesOnly [.mirl, .hdr, .rst] u ∧
      (s.formed = false → m.observer = false → u.rst = s.rst) ∧
      (s.formed = true ∨ m.observer = true → l = 1 ∨ l = 2 → s.rst.seq = none → s.rst.optionHold = false →
        s.rst.fuses.reach[(8 : Fin 10)] = 0 →
        u.rst.requests = s.rst.requests ++ [⟨8, levelOf l.toNat, 0, false⟩]))

/-! ## Invariants and reset -/

/-- Every step keeps every memory in its canonical form, from every state that has it (R84 to R88: whatever stores, fills, scrubs or
copies a word). -/
def Obligations.EveryStepKeepsTheMemoriesCanonical : Prop :=
  ∀ s t : State, s.memoryOk → step s = .next t → t.memoryOk

/-- Every step keeps g0 of every core at zero without a tag (R128), from every state where it is. -/
def Obligations.EveryStepKeepsG0Zero : Prop :=
  ∀ s t : State, s.g0Zero → step s = .next t → t.g0Zero

/-- Every step keeps the queues that the spec bounds within their bounds (R102, R163, R200, R228, R312, R316, R321), and every slice's
Vector Directory free of a line named twice (R189). -/
def Obligations.EveryStepKeepsQueuesAndDirectories : Prop :=
  ∀ s t : State, s.queuesOk → s.directoryOk → step s = .next t → t.queuesOk ∧ t.directoryOk

/-- The state after power-on reset has the invariants and holds the reset values that the spec gives: every core at the reset vector,
every trunk DOWN, the Governor DISARMED with no epoch and every zone low, no link of a pair, an empty fault log, the mailbox not
ready. No row of the table has bits, so no word spells a command (the model's choice, log 2). -/
def Obligations.ResetState : Prop :=
  let s := State.reset
  s.memoryOk ∧ s.g0Zero ∧ s.queuesOk ∧ s.directoryOk ∧ s.pending = [] ∧ s.metr.lineTime = 0 ∧
    (∀ c : Cl, s.core[c].pc = 0x07000000 ∧ s.core[c].inReset = true ∧ s.core[c].ie = false) ∧
    (∀ t : TrkId, s.trk[t].link = .down ∧ s.trk[t].enable = false) ∧ s.gov.state = .disarmed ∧ s.gov.epoch = 0 ∧ s.gov.zone = 0 ∧
    s.hub.order = [] ∧ s.hub.seq = 0 ∧ s.mirl.pair = .down ∧ s.mirl.linkUp = false ∧
    s.mirl.lastSeq = 0xFF ∧ s.hmbx.ready = false ∧ s.hmbx.resetSeen = true ∧ s.hmbx.fifo = [] ∧
    ∀ (n w : Nat) (u : State), decodeTableWord n w = none ∧ u.withFetchWord n w = u
end

