-- ==== Sys2Proof/Laws/State.lean ====
section
/-!
SUPPORT. One lemma per field of State for each update of one part: a proof about an update never unfolds the record.
-/
namespace Sys2Proof.Machine

@[simp] theorem State.onCore_pending (s : State) (c : Cl) (f : Core → Core) : (s.onCore c f).pending = s.pending := rfl
@[simp] theorem State.onCore_mem (s : State) (c : Cl) (f : Core → Core) : (s.onCore c f).mem = s.mem := rfl
@[simp] theorem State.onCore_memc (s : State) (c : Cl) (f : Core → Core) : (s.onCore c f).memc = s.memc := rfl
@[simp] theorem State.onCore_osti (s : State) (c : Cl) (f : Core → Core) : (s.onCore c f).osti = s.osti := rfl
@[simp] theorem State.onCore_hdr (s : State) (c : Cl) (f : Core → Core) : (s.onCore c f).hdr = s.hdr := rfl
@[simp] theorem State.onCore_snaps (s : State) (c : Cl) (f : Core → Core) : (s.onCore c f).snaps = s.snaps := rfl
@[simp] theorem State.onCore_arbCfg (s : State) (c : Cl) (f : Core → Core) : (s.onCore c f).arbCfg = s.arbCfg := rfl
@[simp] theorem State.onCore_chord (s : State) (c : Cl) (f : Core → Core) : (s.onCore c f).chord = s.chord := rfl
@[simp] theorem State.onCore_unis (s : State) (c : Cl) (f : Core → Core) : (s.onCore c f).unis = s.unis := rfl
@[simp] theorem State.onCore_trk (s : State) (c : Cl) (f : Core → Core) : (s.onCore c f).trk = s.trk := rfl
@[simp] theorem State.onCore_gov (s : State) (c : Cl) (f : Core → Core) : (s.onCore c f).gov = s.gov := rfl
@[simp] theorem State.onCore_hub (s : State) (c : Cl) (f : Core → Core) : (s.onCore c f).hub = s.hub := rfl
@[simp] theorem State.onCore_metr (s : State) (c : Cl) (f : Core → Core) : (s.onCore c f).metr = s.metr := rfl
@[simp] theorem State.onCore_cres (s : State) (c : Cl) (f : Core → Core) : (s.onCore c f).cres = s.cres := rfl
@[simp] theorem State.onCore_aon (s : State) (c : Cl) (f : Core → Core) : (s.onCore c f).aon = s.aon := rfl
@[simp] theorem State.onCore_rst (s : State) (c : Cl) (f : Core → Core) : (s.onCore c f).rst = s.rst := rfl
@[simp] theorem State.onCore_hmbx (s : State) (c : Cl) (f : Core → Core) : (s.onCore c f).hmbx = s.hmbx := rfl
@[simp] theorem State.onCore_drunor (s : State) (c : Cl) (f : Core → Core) : (s.onCore c f).drunor = s.drunor := rfl
@[simp] theorem State.onCore_mirl (s : State) (c : Cl) (f : Core → Core) : (s.onCore c f).mirl = s.mirl := rfl
@[simp] theorem State.onCore_ans (s : State) (c : Cl) (f : Core → Core) : (s.onCore c f).ans = s.ans := rfl
@[simp] theorem State.onCore_free (s : State) (c : Cl) (f : Core → Core) : (s.onCore c f).free = s.free := rfl
theorem State.onCore_core (s : State) (c : Cl) (f : Core → Core) : (s.onCore c f).core = upd s.core c f := rfl

@[simp] theorem State.onTrk_pending (s : State) (t : TrkId) (f : Trunk → Trunk) : (s.onTrk t f).pending = s.pending := rfl
@[simp] theorem State.onTrk_mem (s : State) (t : TrkId) (f : Trunk → Trunk) : (s.onTrk t f).mem = s.mem := rfl
@[simp] theorem State.onTrk_memc (s : State) (t : TrkId) (f : Trunk → Trunk) : (s.onTrk t f).memc = s.memc := rfl
@[simp] theorem State.onTrk_osti (s : State) (t : TrkId) (f : Trunk → Trunk) : (s.onTrk t f).osti = s.osti := rfl
@[simp] theorem State.onTrk_hdr (s : State) (t : TrkId) (f : Trunk → Trunk) : (s.onTrk t f).hdr = s.hdr := rfl
@[simp] theorem State.onTrk_snaps (s : State) (t : TrkId) (f : Trunk → Trunk) : (s.onTrk t f).snaps = s.snaps := rfl
@[simp] theorem State.onTrk_arbCfg (s : State) (t : TrkId) (f : Trunk → Trunk) : (s.onTrk t f).arbCfg = s.arbCfg := rfl
@[simp] theorem State.onTrk_chord (s : State) (t : TrkId) (f : Trunk → Trunk) : (s.onTrk t f).chord = s.chord := rfl
@[simp] theorem State.onTrk_core (s : State) (t : TrkId) (f : Trunk → Trunk) : (s.onTrk t f).core = s.core := rfl
@[simp] theorem State.onTrk_unis (s : State) (t : TrkId) (f : Trunk → Trunk) : (s.onTrk t f).unis = s.unis := rfl
@[simp] theorem State.onTrk_gov (s : State) (t : TrkId) (f : Trunk → Trunk) : (s.onTrk t f).gov = s.gov := rfl
@[simp] theorem State.onTrk_hub (s : State) (t : TrkId) (f : Trunk → Trunk) : (s.onTrk t f).hub = s.hub := rfl
@[simp] theorem State.onTrk_metr (s : State) (t : TrkId) (f : Trunk → Trunk) : (s.onTrk t f).metr = s.metr := rfl
@[simp] theorem State.onTrk_cres (s : State) (t : TrkId) (f : Trunk → Trunk) : (s.onTrk t f).cres = s.cres := rfl
@[simp] theorem State.onTrk_aon (s : State) (t : TrkId) (f : Trunk → Trunk) : (s.onTrk t f).aon = s.aon := rfl
@[simp] theorem State.onTrk_rst (s : State) (t : TrkId) (f : Trunk → Trunk) : (s.onTrk t f).rst = s.rst := rfl
@[simp] theorem State.onTrk_hmbx (s : State) (t : TrkId) (f : Trunk → Trunk) : (s.onTrk t f).hmbx = s.hmbx := rfl
@[simp] theorem State.onTrk_drunor (s : State) (t : TrkId) (f : Trunk → Trunk) : (s.onTrk t f).drunor = s.drunor := rfl
@[simp] theorem State.onTrk_mirl (s : State) (t : TrkId) (f : Trunk → Trunk) : (s.onTrk t f).mirl = s.mirl := rfl
@[simp] theorem State.onTrk_ans (s : State) (t : TrkId) (f : Trunk → Trunk) : (s.onTrk t f).ans = s.ans := rfl
@[simp] theorem State.onTrk_free (s : State) (t : TrkId) (f : Trunk → Trunk) : (s.onTrk t f).free = s.free := rfl
theorem State.onTrk_trk (s : State) (t : TrkId) (f : Trunk → Trunk) : (s.onTrk t f).trk = upd s.trk t f := rfl

@[simp] theorem State.onHdr_pending (s : State) (b : BlkId) (f : Hdr → Hdr) : (s.onHdr b f).pending = s.pending := rfl
@[simp] theorem State.onHdr_mem (s : State) (b : BlkId) (f : Hdr → Hdr) : (s.onHdr b f).mem = s.mem := rfl
@[simp] theorem State.onHdr_memc (s : State) (b : BlkId) (f : Hdr → Hdr) : (s.onHdr b f).memc = s.memc := rfl
@[simp] theorem State.onHdr_osti (s : State) (b : BlkId) (f : Hdr → Hdr) : (s.onHdr b f).osti = s.osti := rfl
@[simp] theorem State.onHdr_snaps (s : State) (b : BlkId) (f : Hdr → Hdr) : (s.onHdr b f).snaps = s.snaps := rfl
@[simp] theorem State.onHdr_arbCfg (s : State) (b : BlkId) (f : Hdr → Hdr) : (s.onHdr b f).arbCfg = s.arbCfg := rfl
@[simp] theorem State.onHdr_chord (s : State) (b : BlkId) (f : Hdr → Hdr) : (s.onHdr b f).chord = s.chord := rfl
@[simp] theorem State.onHdr_core (s : State) (b : BlkId) (f : Hdr → Hdr) : (s.onHdr b f).core = s.core := rfl
@[simp] theorem State.onHdr_unis (s : State) (b : BlkId) (f : Hdr → Hdr) : (s.onHdr b f).unis = s.unis := rfl
@[simp] theorem State.onHdr_trk (s : State) (b : BlkId) (f : Hdr → Hdr) : (s.onHdr b f).trk = s.trk := rfl
@[simp] theorem State.onHdr_gov (s : State) (b : BlkId) (f : Hdr → Hdr) : (s.onHdr b f).gov = s.gov := rfl
@[simp] theorem State.onHdr_hub (s : State) (b : BlkId) (f : Hdr → Hdr) : (s.onHdr b f).hub = s.hub := rfl
@[simp] theorem State.onHdr_metr (s : State) (b : BlkId) (f : Hdr → Hdr) : (s.onHdr b f).metr = s.metr := rfl
@[simp] theorem State.onHdr_cres (s : State) (b : BlkId) (f : Hdr → Hdr) : (s.onHdr b f).cres = s.cres := rfl
@[simp] theorem State.onHdr_aon (s : State) (b : BlkId) (f : Hdr → Hdr) : (s.onHdr b f).aon = s.aon := rfl
@[simp] theorem State.onHdr_rst (s : State) (b : BlkId) (f : Hdr → Hdr) : (s.onHdr b f).rst = s.rst := rfl
@[simp] theorem State.onHdr_hmbx (s : State) (b : BlkId) (f : Hdr → Hdr) : (s.onHdr b f).hmbx = s.hmbx := rfl
@[simp] theorem State.onHdr_drunor (s : State) (b : BlkId) (f : Hdr → Hdr) : (s.onHdr b f).drunor = s.drunor := rfl
@[simp] theorem State.onHdr_mirl (s : State) (b : BlkId) (f : Hdr → Hdr) : (s.onHdr b f).mirl = s.mirl := rfl
@[simp] theorem State.onHdr_ans (s : State) (b : BlkId) (f : Hdr → Hdr) : (s.onHdr b f).ans = s.ans := rfl
@[simp] theorem State.onHdr_free (s : State) (b : BlkId) (f : Hdr → Hdr) : (s.onHdr b f).free = s.free := rfl
theorem State.onHdr_hdr (s : State) (b : BlkId) (f : Hdr → Hdr) : (s.onHdr b f).hdr = upd s.hdr b f := rfl

@[simp] theorem State.onSlice_pending (s : State) (i : SliceId) (f : Slice → Slice) : (s.onSlice i f).pending = s.pending := rfl
@[simp] theorem State.onSlice_mem (s : State) (i : SliceId) (f : Slice → Slice) : (s.onSlice i f).mem = s.mem := rfl
@[simp] theorem State.onSlice_memc (s : State) (i : SliceId) (f : Slice → Slice) : (s.onSlice i f).memc = s.memc := rfl
@[simp] theorem State.onSlice_osti (s : State) (i : SliceId) (f : Slice → Slice) : (s.onSlice i f).osti = s.osti := rfl
@[simp] theorem State.onSlice_hdr (s : State) (i : SliceId) (f : Slice → Slice) : (s.onSlice i f).hdr = s.hdr := rfl
@[simp] theorem State.onSlice_snaps (s : State) (i : SliceId) (f : Slice → Slice) : (s.onSlice i f).snaps = s.snaps := rfl
@[simp] theorem State.onSlice_arbCfg (s : State) (i : SliceId) (f : Slice → Slice) : (s.onSlice i f).arbCfg = s.arbCfg := rfl
@[simp] theorem State.onSlice_core (s : State) (i : SliceId) (f : Slice → Slice) : (s.onSlice i f).core = s.core := rfl
@[simp] theorem State.onSlice_unis (s : State) (i : SliceId) (f : Slice → Slice) : (s.onSlice i f).unis = s.unis := rfl
@[simp] theorem State.onSlice_trk (s : State) (i : SliceId) (f : Slice → Slice) : (s.onSlice i f).trk = s.trk := rfl
@[simp] theorem State.onSlice_gov (s : State) (i : SliceId) (f : Slice → Slice) : (s.onSlice i f).gov = s.gov := rfl
@[simp] theorem State.onSlice_hub (s : State) (i : SliceId) (f : Slice → Slice) : (s.onSlice i f).hub = s.hub := rfl
@[simp] theorem State.onSlice_metr (s : State) (i : SliceId) (f : Slice → Slice) : (s.onSlice i f).metr = s.metr := rfl
@[simp] theorem State.onSlice_cres (s : State) (i : SliceId) (f : Slice → Slice) : (s.onSlice i f).cres = s.cres := rfl
@[simp] theorem State.onSlice_aon (s : State) (i : SliceId) (f : Slice → Slice) : (s.onSlice i f).aon = s.aon := rfl
@[simp] theorem State.onSlice_rst (s : State) (i : SliceId) (f : Slice → Slice) : (s.onSlice i f).rst = s.rst := rfl
@[simp] theorem State.onSlice_hmbx (s : State) (i : SliceId) (f : Slice → Slice) : (s.onSlice i f).hmbx = s.hmbx := rfl
@[simp] theorem State.onSlice_drunor (s : State) (i : SliceId) (f : Slice → Slice) : (s.onSlice i f).drunor = s.drunor := rfl
@[simp] theorem State.onSlice_mirl (s : State) (i : SliceId) (f : Slice → Slice) : (s.onSlice i f).mirl = s.mirl := rfl
@[simp] theorem State.onSlice_ans (s : State) (i : SliceId) (f : Slice → Slice) : (s.onSlice i f).ans = s.ans := rfl
@[simp] theorem State.onSlice_free (s : State) (i : SliceId) (f : Slice → Slice) : (s.onSlice i f).free = s.free := rfl
@[simp] theorem State.onSlice_chord (s : State) (i : SliceId) (f : Slice → Slice) : (s.onSlice i f).chord = { s.chord with slice := upd s.chord.slice i f } := rfl

@[simp] theorem State.onGov_pending (s : State) (f : Gov → Gov) : (s.onGov f).pending = s.pending := rfl
@[simp] theorem State.onGov_mem (s : State) (f : Gov → Gov) : (s.onGov f).mem = s.mem := rfl
@[simp] theorem State.onGov_memc (s : State) (f : Gov → Gov) : (s.onGov f).memc = s.memc := rfl
@[simp] theorem State.onGov_osti (s : State) (f : Gov → Gov) : (s.onGov f).osti = s.osti := rfl
@[simp] theorem State.onGov_hdr (s : State) (f : Gov → Gov) : (s.onGov f).hdr = s.hdr := rfl
@[simp] theorem State.onGov_snaps (s : State) (f : Gov → Gov) : (s.onGov f).snaps = s.snaps := rfl
@[simp] theorem State.onGov_arbCfg (s : State) (f : Gov → Gov) : (s.onGov f).arbCfg = s.arbCfg := rfl
@[simp] theorem State.onGov_chord (s : State) (f : Gov → Gov) : (s.onGov f).chord = s.chord := rfl
@[simp] theorem State.onGov_core (s : State) (f : Gov → Gov) : (s.onGov f).core = s.core := rfl
@[simp] theorem State.onGov_unis (s : State) (f : Gov → Gov) : (s.onGov f).unis = s.unis := rfl
@[simp] theorem State.onGov_trk (s : State) (f : Gov → Gov) : (s.onGov f).trk = s.trk := rfl
@[simp] theorem State.onGov_hub (s : State) (f : Gov → Gov) : (s.onGov f).hub = s.hub := rfl
@[simp] theorem State.onGov_metr (s : State) (f : Gov → Gov) : (s.onGov f).metr = s.metr := rfl
@[simp] theorem State.onGov_cres (s : State) (f : Gov → Gov) : (s.onGov f).cres = s.cres := rfl
@[simp] theorem State.onGov_aon (s : State) (f : Gov → Gov) : (s.onGov f).aon = s.aon := rfl
@[simp] theorem State.onGov_rst (s : State) (f : Gov → Gov) : (s.onGov f).rst = s.rst := rfl
@[simp] theorem State.onGov_hmbx (s : State) (f : Gov → Gov) : (s.onGov f).hmbx = s.hmbx := rfl
@[simp] theorem State.onGov_drunor (s : State) (f : Gov → Gov) : (s.onGov f).drunor = s.drunor := rfl
@[simp] theorem State.onGov_mirl (s : State) (f : Gov → Gov) : (s.onGov f).mirl = s.mirl := rfl
@[simp] theorem State.onGov_ans (s : State) (f : Gov → Gov) : (s.onGov f).ans = s.ans := rfl
@[simp] theorem State.onGov_free (s : State) (f : Gov → Gov) : (s.onGov f).free = s.free := rfl
@[simp] theorem State.onGov_gov (s : State) (f : Gov → Gov) : (s.onGov f).gov = f s.gov := rfl

@[simp] theorem State.onHub_pending (s : State) (f : Fhub → Fhub) : (s.onHub f).pending = s.pending := rfl
@[simp] theorem State.onHub_mem (s : State) (f : Fhub → Fhub) : (s.onHub f).mem = s.mem := rfl
@[simp] theorem State.onHub_memc (s : State) (f : Fhub → Fhub) : (s.onHub f).memc = s.memc := rfl
@[simp] theorem State.onHub_osti (s : State) (f : Fhub → Fhub) : (s.onHub f).osti = s.osti := rfl
@[simp] theorem State.onHub_hdr (s : State) (f : Fhub → Fhub) : (s.onHub f).hdr = s.hdr := rfl
@[simp] theorem State.onHub_snaps (s : State) (f : Fhub → Fhub) : (s.onHub f).snaps = s.snaps := rfl
@[simp] theorem State.onHub_arbCfg (s : State) (f : Fhub → Fhub) : (s.onHub f).arbCfg = s.arbCfg := rfl
@[simp] theorem State.onHub_chord (s : State) (f : Fhub → Fhub) : (s.onHub f).chord = s.chord := rfl
@[simp] theorem State.onHub_core (s : State) (f : Fhub → Fhub) : (s.onHub f).core = s.core := rfl
@[simp] theorem State.onHub_unis (s : State) (f : Fhub → Fhub) : (s.onHub f).unis = s.unis := rfl
@[simp] theorem State.onHub_trk (s : State) (f : Fhub → Fhub) : (s.onHub f).trk = s.trk := rfl
@[simp] theorem State.onHub_gov (s : State) (f : Fhub → Fhub) : (s.onHub f).gov = s.gov := rfl
@[simp] theorem State.onHub_metr (s : State) (f : Fhub → Fhub) : (s.onHub f).metr = s.metr := rfl
@[simp] theorem State.onHub_cres (s : State) (f : Fhub → Fhub) : (s.onHub f).cres = s.cres := rfl
@[simp] theorem State.onHub_aon (s : State) (f : Fhub → Fhub) : (s.onHub f).aon = s.aon := rfl
@[simp] theorem State.onHub_rst (s : State) (f : Fhub → Fhub) : (s.onHub f).rst = s.rst := rfl
@[simp] theorem State.onHub_hmbx (s : State) (f : Fhub → Fhub) : (s.onHub f).hmbx = s.hmbx := rfl
@[simp] theorem State.onHub_drunor (s : State) (f : Fhub → Fhub) : (s.onHub f).drunor = s.drunor := rfl
@[simp] theorem State.onHub_mirl (s : State) (f : Fhub → Fhub) : (s.onHub f).mirl = s.mirl := rfl
@[simp] theorem State.onHub_ans (s : State) (f : Fhub → Fhub) : (s.onHub f).ans = s.ans := rfl
@[simp] theorem State.onHub_free (s : State) (f : Fhub → Fhub) : (s.onHub f).free = s.free := rfl
@[simp] theorem State.onHub_hub (s : State) (f : Fhub → Fhub) : (s.onHub f).hub = f s.hub := rfl

@[simp] theorem State.onUnis_pending (s : State) (f : Unis → Unis) : (s.onUnis f).pending = s.pending := rfl
@[simp] theorem State.onUnis_mem (s : State) (f : Unis → Unis) : (s.onUnis f).mem = s.mem := rfl
@[simp] theorem State.onUnis_memc (s : State) (f : Unis → Unis) : (s.onUnis f).memc = s.memc := rfl
@[simp] theorem State.onUnis_osti (s : State) (f : Unis → Unis) : (s.onUnis f).osti = s.osti := rfl
@[simp] theorem State.onUnis_hdr (s : State) (f : Unis → Unis) : (s.onUnis f).hdr = s.hdr := rfl
@[simp] theorem State.onUnis_snaps (s : State) (f : Unis → Unis) : (s.onUnis f).snaps = s.snaps := rfl
@[simp] theorem State.onUnis_arbCfg (s : State) (f : Unis → Unis) : (s.onUnis f).arbCfg = s.arbCfg := rfl
@[simp] theorem State.onUnis_chord (s : State) (f : Unis → Unis) : (s.onUnis f).chord = s.chord := rfl
@[simp] theorem State.onUnis_core (s : State) (f : Unis → Unis) : (s.onUnis f).core = s.core := rfl
@[simp] theorem State.onUnis_trk (s : State) (f : Unis → Unis) : (s.onUnis f).trk = s.trk := rfl
@[simp] theorem State.onUnis_gov (s : State) (f : Unis → Unis) : (s.onUnis f).gov = s.gov := rfl
@[simp] theorem State.onUnis_hub (s : State) (f : Unis → Unis) : (s.onUnis f).hub = s.hub := rfl
@[simp] theorem State.onUnis_metr (s : State) (f : Unis → Unis) : (s.onUnis f).metr = s.metr := rfl
@[simp] theorem State.onUnis_cres (s : State) (f : Unis → Unis) : (s.onUnis f).cres = s.cres := rfl
@[simp] theorem State.onUnis_aon (s : State) (f : Unis → Unis) : (s.onUnis f).aon = s.aon := rfl
@[simp] theorem State.onUnis_rst (s : State) (f : Unis → Unis) : (s.onUnis f).rst = s.rst := rfl
@[simp] theorem State.onUnis_hmbx (s : State) (f : Unis → Unis) : (s.onUnis f).hmbx = s.hmbx := rfl
@[simp] theorem State.onUnis_drunor (s : State) (f : Unis → Unis) : (s.onUnis f).drunor = s.drunor := rfl
@[simp] theorem State.onUnis_mirl (s : State) (f : Unis → Unis) : (s.onUnis f).mirl = s.mirl := rfl
@[simp] theorem State.onUnis_ans (s : State) (f : Unis → Unis) : (s.onUnis f).ans = s.ans := rfl
@[simp] theorem State.onUnis_free (s : State) (f : Unis → Unis) : (s.onUnis f).free = s.free := rfl
@[simp] theorem State.onUnis_unis (s : State) (f : Unis → Unis) : (s.onUnis f).unis = f s.unis := rfl

@[simp] theorem State.onMetr_pending (s : State) (f : Metr → Metr) : (s.onMetr f).pending = s.pending := rfl
@[simp] theorem State.onMetr_mem (s : State) (f : Metr → Metr) : (s.onMetr f).mem = s.mem := rfl
@[simp] theorem State.onMetr_memc (s : State) (f : Metr → Metr) : (s.onMetr f).memc = s.memc := rfl
@[simp] theorem State.onMetr_osti (s : State) (f : Metr → Metr) : (s.onMetr f).osti = s.osti := rfl
@[simp] theorem State.onMetr_hdr (s : State) (f : Metr → Metr) : (s.onMetr f).hdr = s.hdr := rfl
@[simp] theorem State.onMetr_snaps (s : State) (f : Metr → Metr) : (s.onMetr f).snaps = s.snaps := rfl
@[simp] theorem State.onMetr_arbCfg (s : State) (f : Metr → Metr) : (s.onMetr f).arbCfg = s.arbCfg := rfl
@[simp] theorem State.onMetr_chord (s : State) (f : Metr → Metr) : (s.onMetr f).chord = s.chord := rfl
@[simp] theorem State.onMetr_core (s : State) (f : Metr → Metr) : (s.onMetr f).core = s.core := rfl
@[simp] theorem State.onMetr_unis (s : State) (f : Metr → Metr) : (s.onMetr f).unis = s.unis := rfl
@[simp] theorem State.onMetr_trk (s : State) (f : Metr → Metr) : (s.onMetr f).trk = s.trk := rfl
@[simp] theorem State.onMetr_gov (s : State) (f : Metr → Metr) : (s.onMetr f).gov = s.gov := rfl
@[simp] theorem State.onMetr_hub (s : State) (f : Metr → Metr) : (s.onMetr f).hub = s.hub := rfl
@[simp] theorem State.onMetr_cres (s : State) (f : Metr → Metr) : (s.onMetr f).cres = s.cres := rfl
@[simp] theorem State.onMetr_aon (s : State) (f : Metr → Metr) : (s.onMetr f).aon = s.aon := rfl
@[simp] theorem State.onMetr_rst (s : State) (f : Metr → Metr) : (s.onMetr f).rst = s.rst := rfl
@[simp] theorem State.onMetr_hmbx (s : State) (f : Metr → Metr) : (s.onMetr f).hmbx = s.hmbx := rfl
@[simp] theorem State.onMetr_drunor (s : State) (f : Metr → Metr) : (s.onMetr f).drunor = s.drunor := rfl
@[simp] theorem State.onMetr_mirl (s : State) (f : Metr → Metr) : (s.onMetr f).mirl = s.mirl := rfl
@[simp] theorem State.onMetr_ans (s : State) (f : Metr → Metr) : (s.onMetr f).ans = s.ans := rfl
@[simp] theorem State.onMetr_free (s : State) (f : Metr → Metr) : (s.onMetr f).free = s.free := rfl
@[simp] theorem State.onMetr_metr (s : State) (f : Metr → Metr) : (s.onMetr f).metr = f s.metr := rfl

@[simp] theorem State.onCres_pending (s : State) (f : Cres → Cres) : (s.onCres f).pending = s.pending := rfl
@[simp] theorem State.onCres_mem (s : State) (f : Cres → Cres) : (s.onCres f).mem = s.mem := rfl
@[simp] theorem State.onCres_memc (s : State) (f : Cres → Cres) : (s.onCres f).memc = s.memc := rfl
@[simp] theorem State.onCres_osti (s : State) (f : Cres → Cres) : (s.onCres f).osti = s.osti := rfl
@[simp] theorem State.onCres_hdr (s : State) (f : Cres → Cres) : (s.onCres f).hdr = s.hdr := rfl
@[simp] theorem State.onCres_snaps (s : State) (f : Cres → Cres) : (s.onCres f).snaps = s.snaps := rfl
@[simp] theorem State.onCres_arbCfg (s : State) (f : Cres → Cres) : (s.onCres f).arbCfg = s.arbCfg := rfl
@[simp] theorem State.onCres_chord (s : State) (f : Cres → Cres) : (s.onCres f).chord = s.chord := rfl
@[simp] theorem State.onCres_core (s : State) (f : Cres → Cres) : (s.onCres f).core = s.core := rfl
@[simp] theorem State.onCres_unis (s : State) (f : Cres → Cres) : (s.onCres f).unis = s.unis := rfl
@[simp] theorem State.onCres_trk (s : State) (f : Cres → Cres) : (s.onCres f).trk = s.trk := rfl
@[simp] theorem State.onCres_gov (s : State) (f : Cres → Cres) : (s.onCres f).gov = s.gov := rfl
@[simp] theorem State.onCres_hub (s : State) (f : Cres → Cres) : (s.onCres f).hub = s.hub := rfl
@[simp] theorem State.onCres_metr (s : State) (f : Cres → Cres) : (s.onCres f).metr = s.metr := rfl
@[simp] theorem State.onCres_aon (s : State) (f : Cres → Cres) : (s.onCres f).aon = s.aon := rfl
@[simp] theorem State.onCres_rst (s : State) (f : Cres → Cres) : (s.onCres f).rst = s.rst := rfl
@[simp] theorem State.onCres_hmbx (s : State) (f : Cres → Cres) : (s.onCres f).hmbx = s.hmbx := rfl
@[simp] theorem State.onCres_drunor (s : State) (f : Cres → Cres) : (s.onCres f).drunor = s.drunor := rfl
@[simp] theorem State.onCres_mirl (s : State) (f : Cres → Cres) : (s.onCres f).mirl = s.mirl := rfl
@[simp] theorem State.onCres_ans (s : State) (f : Cres → Cres) : (s.onCres f).ans = s.ans := rfl
@[simp] theorem State.onCres_free (s : State) (f : Cres → Cres) : (s.onCres f).free = s.free := rfl
@[simp] theorem State.onCres_cres (s : State) (f : Cres → Cres) : (s.onCres f).cres = f s.cres := rfl

@[simp] theorem State.onAon_pending (s : State) (f : Aon → Aon) : (s.onAon f).pending = s.pending := rfl
@[simp] theorem State.onAon_mem (s : State) (f : Aon → Aon) : (s.onAon f).mem = s.mem := rfl
@[simp] theorem State.onAon_memc (s : State) (f : Aon → Aon) : (s.onAon f).memc = s.memc := rfl
@[simp] theorem State.onAon_osti (s : State) (f : Aon → Aon) : (s.onAon f).osti = s.osti := rfl
@[simp] theorem State.onAon_hdr (s : State) (f : Aon → Aon) : (s.onAon f).hdr = s.hdr := rfl
@[simp] theorem State.onAon_snaps (s : State) (f : Aon → Aon) : (s.onAon f).snaps = s.snaps := rfl
@[simp] theorem State.onAon_arbCfg (s : State) (f : Aon → Aon) : (s.onAon f).arbCfg = s.arbCfg := rfl
@[simp] theorem State.onAon_chord (s : State) (f : Aon → Aon) : (s.onAon f).chord = s.chord := rfl
@[simp] theorem State.onAon_core (s : State) (f : Aon → Aon) : (s.onAon f).core = s.core := rfl
@[simp] theorem State.onAon_unis (s : State) (f : Aon → Aon) : (s.onAon f).unis = s.unis := rfl
@[simp] theorem State.onAon_trk (s : State) (f : Aon → Aon) : (s.onAon f).trk = s.trk := rfl
@[simp] theorem State.onAon_gov (s : State) (f : Aon → Aon) : (s.onAon f).gov = s.gov := rfl
@[simp] theorem State.onAon_hub (s : State) (f : Aon → Aon) : (s.onAon f).hub = s.hub := rfl
@[simp] theorem State.onAon_metr (s : State) (f : Aon → Aon) : (s.onAon f).metr = s.metr := rfl
@[simp] theorem State.onAon_cres (s : State) (f : Aon → Aon) : (s.onAon f).cres = s.cres := rfl
@[simp] theorem State.onAon_rst (s : State) (f : Aon → Aon) : (s.onAon f).rst = s.rst := rfl
@[simp] theorem State.onAon_hmbx (s : State) (f : Aon → Aon) : (s.onAon f).hmbx = s.hmbx := rfl
@[simp] theorem State.onAon_drunor (s : State) (f : Aon → Aon) : (s.onAon f).drunor = s.drunor := rfl
@[simp] theorem State.onAon_mirl (s : State) (f : Aon → Aon) : (s.onAon f).mirl = s.mirl := rfl
@[simp] theorem State.onAon_ans (s : State) (f : Aon → Aon) : (s.onAon f).ans = s.ans := rfl
@[simp] theorem State.onAon_free (s : State) (f : Aon → Aon) : (s.onAon f).free = s.free := rfl
@[simp] theorem State.onAon_aon (s : State) (f : Aon → Aon) : (s.onAon f).aon = f s.aon := rfl

@[simp] theorem State.onRst_pending (s : State) (f : Rstc → Rstc) : (s.onRst f).pending = s.pending := rfl
@[simp] theorem State.onRst_mem (s : State) (f : Rstc → Rstc) : (s.onRst f).mem = s.mem := rfl
@[simp] theorem State.onRst_memc (s : State) (f : Rstc → Rstc) : (s.onRst f).memc = s.memc := rfl
@[simp] theorem State.onRst_osti (s : State) (f : Rstc → Rstc) : (s.onRst f).osti = s.osti := rfl
@[simp] theorem State.onRst_hdr (s : State) (f : Rstc → Rstc) : (s.onRst f).hdr = s.hdr := rfl
@[simp] theorem State.onRst_snaps (s : State) (f : Rstc → Rstc) : (s.onRst f).snaps = s.snaps := rfl
@[simp] theorem State.onRst_arbCfg (s : State) (f : Rstc → Rstc) : (s.onRst f).arbCfg = s.arbCfg := rfl
@[simp] theorem State.onRst_chord (s : State) (f : Rstc → Rstc) : (s.onRst f).chord = s.chord := rfl
@[simp] theorem State.onRst_core (s : State) (f : Rstc → Rstc) : (s.onRst f).core = s.core := rfl
@[simp] theorem State.onRst_unis (s : State) (f : Rstc → Rstc) : (s.onRst f).unis = s.unis := rfl
@[simp] theorem State.onRst_trk (s : State) (f : Rstc → Rstc) : (s.onRst f).trk = s.trk := rfl
@[simp] theorem State.onRst_gov (s : State) (f : Rstc → Rstc) : (s.onRst f).gov = s.gov := rfl
@[simp] theorem State.onRst_hub (s : State) (f : Rstc → Rstc) : (s.onRst f).hub = s.hub := rfl
@[simp] theorem State.onRst_metr (s : State) (f : Rstc → Rstc) : (s.onRst f).metr = s.metr := rfl
@[simp] theorem State.onRst_cres (s : State) (f : Rstc → Rstc) : (s.onRst f).cres = s.cres := rfl
@[simp] theorem State.onRst_aon (s : State) (f : Rstc → Rstc) : (s.onRst f).aon = s.aon := rfl
@[simp] theorem State.onRst_hmbx (s : State) (f : Rstc → Rstc) : (s.onRst f).hmbx = s.hmbx := rfl
@[simp] theorem State.onRst_drunor (s : State) (f : Rstc → Rstc) : (s.onRst f).drunor = s.drunor := rfl
@[simp] theorem State.onRst_mirl (s : State) (f : Rstc → Rstc) : (s.onRst f).mirl = s.mirl := rfl
@[simp] theorem State.onRst_ans (s : State) (f : Rstc → Rstc) : (s.onRst f).ans = s.ans := rfl
@[simp] theorem State.onRst_free (s : State) (f : Rstc → Rstc) : (s.onRst f).free = s.free := rfl
@[simp] theorem State.onRst_rst (s : State) (f : Rstc → Rstc) : (s.onRst f).rst = f s.rst := rfl

@[simp] theorem State.onHmbx_pending (s : State) (f : Hmbx → Hmbx) : (s.onHmbx f).pending = s.pending := rfl
@[simp] theorem State.onHmbx_mem (s : State) (f : Hmbx → Hmbx) : (s.onHmbx f).mem = s.mem := rfl
@[simp] theorem State.onHmbx_memc (s : State) (f : Hmbx → Hmbx) : (s.onHmbx f).memc = s.memc := rfl
@[simp] theorem State.onHmbx_osti (s : State) (f : Hmbx → Hmbx) : (s.onHmbx f).osti = s.osti := rfl
@[simp] theorem State.onHmbx_hdr (s : State) (f : Hmbx → Hmbx) : (s.onHmbx f).hdr = s.hdr := rfl
@[simp] theorem State.onHmbx_snaps (s : State) (f : Hmbx → Hmbx) : (s.onHmbx f).snaps = s.snaps := rfl
@[simp] theorem State.onHmbx_arbCfg (s : State) (f : Hmbx → Hmbx) : (s.onHmbx f).arbCfg = s.arbCfg := rfl
@[simp] theorem State.onHmbx_chord (s : State) (f : Hmbx → Hmbx) : (s.onHmbx f).chord = s.chord := rfl
@[simp] theorem State.onHmbx_core (s : State) (f : Hmbx → Hmbx) : (s.onHmbx f).core = s.core := rfl
@[simp] theorem State.onHmbx_unis (s : State) (f : Hmbx → Hmbx) : (s.onHmbx f).unis = s.unis := rfl
@[simp] theorem State.onHmbx_trk (s : State) (f : Hmbx → Hmbx) : (s.onHmbx f).trk = s.trk := rfl
@[simp] theorem State.onHmbx_gov (s : State) (f : Hmbx → Hmbx) : (s.onHmbx f).gov = s.gov := rfl
@[simp] theorem State.onHmbx_hub (s : State) (f : Hmbx → Hmbx) : (s.onHmbx f).hub = s.hub := rfl
@[simp] theorem State.onHmbx_metr (s : State) (f : Hmbx → Hmbx) : (s.onHmbx f).metr = s.metr := rfl
@[simp] theorem State.onHmbx_cres (s : State) (f : Hmbx → Hmbx) : (s.onHmbx f).cres = s.cres := rfl
@[simp] theorem State.onHmbx_aon (s : State) (f : Hmbx → Hmbx) : (s.onHmbx f).aon = s.aon := rfl
@[simp] theorem State.onHmbx_rst (s : State) (f : Hmbx → Hmbx) : (s.onHmbx f).rst = s.rst := rfl
@[simp] theorem State.onHmbx_drunor (s : State) (f : Hmbx → Hmbx) : (s.onHmbx f).drunor = s.drunor := rfl
@[simp] theorem State.onHmbx_mirl (s : State) (f : Hmbx → Hmbx) : (s.onHmbx f).mirl = s.mirl := rfl
@[simp] theorem State.onHmbx_ans (s : State) (f : Hmbx → Hmbx) : (s.onHmbx f).ans = s.ans := rfl
@[simp] theorem State.onHmbx_free (s : State) (f : Hmbx → Hmbx) : (s.onHmbx f).free = s.free := rfl
@[simp] theorem State.onHmbx_hmbx (s : State) (f : Hmbx → Hmbx) : (s.onHmbx f).hmbx = f s.hmbx := rfl

@[simp] theorem State.onDrunor_pending (s : State) (f : Drunor → Drunor) : (s.onDrunor f).pending = s.pending := rfl
@[simp] theorem State.onDrunor_mem (s : State) (f : Drunor → Drunor) : (s.onDrunor f).mem = s.mem := rfl
@[simp] theorem State.onDrunor_memc (s : State) (f : Drunor → Drunor) : (s.onDrunor f).memc = s.memc := rfl
@[simp] theorem State.onDrunor_osti (s : State) (f : Drunor → Drunor) : (s.onDrunor f).osti = s.osti := rfl
@[simp] theorem State.onDrunor_hdr (s : State) (f : Drunor → Drunor) : (s.onDrunor f).hdr = s.hdr := rfl
@[simp] theorem State.onDrunor_snaps (s : State) (f : Drunor → Drunor) : (s.onDrunor f).snaps = s.snaps := rfl
@[simp] theorem State.onDrunor_arbCfg (s : State) (f : Drunor → Drunor) : (s.onDrunor f).arbCfg = s.arbCfg := rfl
@[simp] theorem State.onDrunor_chord (s : State) (f : Drunor → Drunor) : (s.onDrunor f).chord = s.chord := rfl
@[simp] theorem State.onDrunor_core (s : State) (f : Drunor → Drunor) : (s.onDrunor f).core = s.core := rfl
@[simp] theorem State.onDrunor_unis (s : State) (f : Drunor → Drunor) : (s.onDrunor f).unis = s.unis := rfl
@[simp] theorem State.onDrunor_trk (s : State) (f : Drunor → Drunor) : (s.onDrunor f).trk = s.trk := rfl
@[simp] theorem State.onDrunor_gov (s : State) (f : Drunor → Drunor) : (s.onDrunor f).gov = s.gov := rfl
@[simp] theorem State.onDrunor_hub (s : State) (f : Drunor → Drunor) : (s.onDrunor f).hub = s.hub := rfl
@[simp] theorem State.onDrunor_metr (s : State) (f : Drunor → Drunor) : (s.onDrunor f).metr = s.metr := rfl
@[simp] theorem State.onDrunor_cres (s : State) (f : Drunor → Drunor) : (s.onDrunor f).cres = s.cres := rfl
@[simp] theorem State.onDrunor_aon (s : State) (f : Drunor → Drunor) : (s.onDrunor f).aon = s.aon := rfl
@[simp] theorem State.onDrunor_rst (s : State) (f : Drunor → Drunor) : (s.onDrunor f).rst = s.rst := rfl
@[simp] theorem State.onDrunor_hmbx (s : State) (f : Drunor → Drunor) : (s.onDrunor f).hmbx = s.hmbx := rfl
@[simp] theorem State.onDrunor_mirl (s : State) (f : Drunor → Drunor) : (s.onDrunor f).mirl = s.mirl := rfl
@[simp] theorem State.onDrunor_ans (s : State) (f : Drunor → Drunor) : (s.onDrunor f).ans = s.ans := rfl
@[simp] theorem State.onDrunor_free (s : State) (f : Drunor → Drunor) : (s.onDrunor f).free = s.free := rfl
@[simp] theorem State.onDrunor_drunor (s : State) (f : Drunor → Drunor) : (s.onDrunor f).drunor = f s.drunor := rfl

@[simp] theorem State.onMirl_pending (s : State) (f : Mirl → Mirl) : (s.onMirl f).pending = s.pending := rfl
@[simp] theorem State.onMirl_mem (s : State) (f : Mirl → Mirl) : (s.onMirl f).mem = s.mem := rfl
@[simp] theorem State.onMirl_memc (s : State) (f : Mirl → Mirl) : (s.onMirl f).memc = s.memc := rfl
@[simp] theorem State.onMirl_osti (s : State) (f : Mirl → Mirl) : (s.onMirl f).osti = s.osti := rfl
@[simp] theorem State.onMirl_hdr (s : State) (f : Mirl → Mirl) : (s.onMirl f).hdr = s.hdr := rfl
@[simp] theorem State.onMirl_snaps (s : State) (f : Mirl → Mirl) : (s.onMirl f).snaps = s.snaps := rfl
@[simp] theorem State.onMirl_arbCfg (s : State) (f : Mirl → Mirl) : (s.onMirl f).arbCfg = s.arbCfg := rfl
@[simp] theorem State.onMirl_chord (s : State) (f : Mirl → Mirl) : (s.onMirl f).chord = s.chord := rfl
@[simp] theorem State.onMirl_core (s : State) (f : Mirl → Mirl) : (s.onMirl f).core = s.core := rfl
@[simp] theorem State.onMirl_unis (s : State) (f : Mirl → Mirl) : (s.onMirl f).unis = s.unis := rfl
@[simp] theorem State.onMirl_trk (s : State) (f : Mirl → Mirl) : (s.onMirl f).trk = s.trk := rfl
@[simp] theorem State.onMirl_gov (s : State) (f : Mirl → Mirl) : (s.onMirl f).gov = s.gov := rfl
@[simp] theorem State.onMirl_hub (s : State) (f : Mirl → Mirl) : (s.onMirl f).hub = s.hub := rfl
@[simp] theorem State.onMirl_metr (s : State) (f : Mirl → Mirl) : (s.onMirl f).metr = s.metr := rfl
@[simp] theorem State.onMirl_cres (s : State) (f : Mirl → Mirl) : (s.onMirl f).cres = s.cres := rfl
@[simp] theorem State.onMirl_aon (s : State) (f : Mirl → Mirl) : (s.onMirl f).aon = s.aon := rfl
@[simp] theorem State.onMirl_rst (s : State) (f : Mirl → Mirl) : (s.onMirl f).rst = s.rst := rfl
@[simp] theorem State.onMirl_hmbx (s : State) (f : Mirl → Mirl) : (s.onMirl f).hmbx = s.hmbx := rfl
@[simp] theorem State.onMirl_drunor (s : State) (f : Mirl → Mirl) : (s.onMirl f).drunor = s.drunor := rfl
@[simp] theorem State.onMirl_ans (s : State) (f : Mirl → Mirl) : (s.onMirl f).ans = s.ans := rfl
@[simp] theorem State.onMirl_free (s : State) (f : Mirl → Mirl) : (s.onMirl f).free = s.free := rfl
@[simp] theorem State.onMirl_mirl (s : State) (f : Mirl → Mirl) : (s.onMirl f).mirl = f s.mirl := rfl

@[simp] theorem State.onChord_pending (s : State) (f : Chord → Chord) : (s.onChord f).pending = s.pending := rfl
@[simp] theorem State.onChord_mem (s : State) (f : Chord → Chord) : (s.onChord f).mem = s.mem := rfl
@[simp] theorem State.onChord_memc (s : State) (f : Chord → Chord) : (s.onChord f).memc = s.memc := rfl
@[simp] theorem State.onChord_osti (s : State) (f : Chord → Chord) : (s.onChord f).osti = s.osti := rfl
@[simp] theorem State.onChord_hdr (s : State) (f : Chord → Chord) : (s.onChord f).hdr = s.hdr := rfl
@[simp] theorem State.onChord_snaps (s : State) (f : Chord → Chord) : (s.onChord f).snaps = s.snaps := rfl
@[simp] theorem State.onChord_arbCfg (s : State) (f : Chord → Chord) : (s.onChord f).arbCfg = s.arbCfg := rfl
@[simp] theorem State.onChord_core (s : State) (f : Chord → Chord) : (s.onChord f).core = s.core := rfl
@[simp] theorem State.onChord_unis (s : State) (f : Chord → Chord) : (s.onChord f).unis = s.unis := rfl
@[simp] theorem State.onChord_trk (s : State) (f : Chord → Chord) : (s.onChord f).trk = s.trk := rfl
@[simp] theorem State.onChord_gov (s : State) (f : Chord → Chord) : (s.onChord f).gov = s.gov := rfl
@[simp] theorem State.onChord_hub (s : State) (f : Chord → Chord) : (s.onChord f).hub = s.hub := rfl
@[simp] theorem State.onChord_metr (s : State) (f : Chord → Chord) : (s.onChord f).metr = s.metr := rfl
@[simp] theorem State.onChord_cres (s : State) (f : Chord → Chord) : (s.onChord f).cres = s.cres := rfl
@[simp] theorem State.onChord_aon (s : State) (f : Chord → Chord) : (s.onChord f).aon = s.aon := rfl
@[simp] theorem State.onChord_rst (s : State) (f : Chord → Chord) : (s.onChord f).rst = s.rst := rfl
@[simp] theorem State.onChord_hmbx (s : State) (f : Chord → Chord) : (s.onChord f).hmbx = s.hmbx := rfl
@[simp] theorem State.onChord_drunor (s : State) (f : Chord → Chord) : (s.onChord f).drunor = s.drunor := rfl
@[simp] theorem State.onChord_mirl (s : State) (f : Chord → Chord) : (s.onChord f).mirl = s.mirl := rfl
@[simp] theorem State.onChord_ans (s : State) (f : Chord → Chord) : (s.onChord f).ans = s.ans := rfl
@[simp] theorem State.onChord_free (s : State) (f : Chord → Chord) : (s.onChord f).free = s.free := rfl
@[simp] theorem State.onChord_chord (s : State) (f : Chord → Chord) : (s.onChord f).chord = f s.chord := rfl

@[simp] theorem State.onMemc_pending (s : State) (f : Memc → Memc) : (s.onMemc f).pending = s.pending := rfl
@[simp] theorem State.onMemc_mem (s : State) (f : Memc → Memc) : (s.onMemc f).mem = s.mem := rfl
@[simp] theorem State.onMemc_osti (s : State) (f : Memc → Memc) : (s.onMemc f).osti = s.osti := rfl
@[simp] theorem State.onMemc_hdr (s : State) (f : Memc → Memc) : (s.onMemc f).hdr = s.hdr := rfl
@[simp] theorem State.onMemc_snaps (s : State) (f : Memc → Memc) : (s.onMemc f).snaps = s.snaps := rfl
@[simp] theorem State.onMemc_arbCfg (s : State) (f : Memc → Memc) : (s.onMemc f).arbCfg = s.arbCfg := rfl
@[simp] theorem State.onMemc_chord (s : State) (f : Memc → Memc) : (s.onMemc f).chord = s.chord := rfl
@[simp] theorem State.onMemc_core (s : State) (f : Memc → Memc) : (s.onMemc f).core = s.core := rfl
@[simp] theorem State.onMemc_unis (s : State) (f : Memc → Memc) : (s.onMemc f).unis = s.unis := rfl
@[simp] theorem State.onMemc_trk (s : State) (f : Memc → Memc) : (s.onMemc f).trk = s.trk := rfl
@[simp] theorem State.onMemc_gov (s : State) (f : Memc → Memc) : (s.onMemc f).gov = s.gov := rfl
@[simp] theorem State.onMemc_hub (s : State) (f : Memc → Memc) : (s.onMemc f).hub = s.hub := rfl
@[simp] theorem State.onMemc_metr (s : State) (f : Memc → Memc) : (s.onMemc f).metr = s.metr := rfl
@[simp] theorem State.onMemc_cres (s : State) (f : Memc → Memc) : (s.onMemc f).cres = s.cres := rfl
@[simp] theorem State.onMemc_aon (s : State) (f : Memc → Memc) : (s.onMemc f).aon = s.aon := rfl
@[simp] theorem State.onMemc_rst (s : State) (f : Memc → Memc) : (s.onMemc f).rst = s.rst := rfl
@[simp] theorem State.onMemc_hmbx (s : State) (f : Memc → Memc) : (s.onMemc f).hmbx = s.hmbx := rfl
@[simp] theorem State.onMemc_drunor (s : State) (f : Memc → Memc) : (s.onMemc f).drunor = s.drunor := rfl
@[simp] theorem State.onMemc_mirl (s : State) (f : Memc → Memc) : (s.onMemc f).mirl = s.mirl := rfl
@[simp] theorem State.onMemc_ans (s : State) (f : Memc → Memc) : (s.onMemc f).ans = s.ans := rfl
@[simp] theorem State.onMemc_free (s : State) (f : Memc → Memc) : (s.onMemc f).free = s.free := rfl
@[simp] theorem State.onMemc_memc (s : State) (f : Memc → Memc) : (s.onMemc f).memc = f s.memc := rfl

@[simp] theorem State.onOsti_pending (s : State) (f : Osti → Osti) : (s.onOsti f).pending = s.pending := rfl
@[simp] theorem State.onOsti_mem (s : State) (f : Osti → Osti) : (s.onOsti f).mem = s.mem := rfl
@[simp] theorem State.onOsti_memc (s : State) (f : Osti → Osti) : (s.onOsti f).memc = s.memc := rfl
@[simp] theorem State.onOsti_hdr (s : State) (f : Osti → Osti) : (s.onOsti f).hdr = s.hdr := rfl
@[simp] theorem State.onOsti_snaps (s : State) (f : Osti → Osti) : (s.onOsti f).snaps = s.snaps := rfl
@[simp] theorem State.onOsti_arbCfg (s : State) (f : Osti → Osti) : (s.onOsti f).arbCfg = s.arbCfg := rfl
@[simp] theorem State.onOsti_chord (s : State) (f : Osti → Osti) : (s.onOsti f).chord = s.chord := rfl
@[simp] theorem State.onOsti_core (s : State) (f : Osti → Osti) : (s.onOsti f).core = s.core := rfl
@[simp] theorem State.onOsti_unis (s : State) (f : Osti → Osti) : (s.onOsti f).unis = s.unis := rfl
@[simp] theorem State.onOsti_trk (s : State) (f : Osti → Osti) : (s.onOsti f).trk = s.trk := rfl
@[simp] theorem State.onOsti_gov (s : State) (f : Osti → Osti) : (s.onOsti f).gov = s.gov := rfl
@[simp] theorem State.onOsti_hub (s : State) (f : Osti → Osti) : (s.onOsti f).hub = s.hub := rfl
@[simp] theorem State.onOsti_metr (s : State) (f : Osti → Osti) : (s.onOsti f).metr = s.metr := rfl
@[simp] theorem State.onOsti_cres (s : State) (f : Osti → Osti) : (s.onOsti f).cres = s.cres := rfl
@[simp] theorem State.onOsti_aon (s : State) (f : Osti → Osti) : (s.onOsti f).aon = s.aon := rfl
@[simp] theorem State.onOsti_rst (s : State) (f : Osti → Osti) : (s.onOsti f).rst = s.rst := rfl
@[simp] theorem State.onOsti_hmbx (s : State) (f : Osti → Osti) : (s.onOsti f).hmbx = s.hmbx := rfl
@[simp] theorem State.onOsti_drunor (s : State) (f : Osti → Osti) : (s.onOsti f).drunor = s.drunor := rfl
@[simp] theorem State.onOsti_mirl (s : State) (f : Osti → Osti) : (s.onOsti f).mirl = s.mirl := rfl
@[simp] theorem State.onOsti_ans (s : State) (f : Osti → Osti) : (s.onOsti f).ans = s.ans := rfl
@[simp] theorem State.onOsti_free (s : State) (f : Osti → Osti) : (s.onOsti f).free = s.free := rfl
@[simp] theorem State.onOsti_osti (s : State) (f : Osti → Osti) : (s.onOsti f).osti = f s.osti := rfl

/-! ## Vectors -/

theorem upd_same {α : Type} {n : Nat} (v : Vector α n) (i : Fin n) (f : α → α) : (upd v i f)[i] = f v[i] := by
  simp [upd]

@[simp] theorem upd_val {α : Type} {n : Nat} (v : Vector α n) (i : Fin n) (f : α → α) : (upd v i f)[i.val] = f v[i.val] :=
  upd_same v i f

theorem upd_other {α : Type} {n : Nat} (v : Vector α n) (i j : Fin n) (f : α → α) (h : i ≠ j) : (upd v i f)[j] = v[j] := by
  have h' : i.val ≠ j.val := fun e => h (Fin.ext e)
  simp [upd, h']

theorem upd_at {α : Type} {n : Nat} (v : Vector α n) (i j : Fin n) (f : α → α) :
    (upd v i f)[j] = if i = j then f v[j] else v[j] := by
  by_cases h : i = j
  · subst h; rw [if_pos rfl]; exact upd_same v i f
  · rw [if_neg h]; exact upd_other v i j f h

theorem State.onCore_same (s : State) (c : Cl) (f : Core → Core) : (s.onCore c f).core[c] = f s.core[c] := upd_same _ c f

@[simp] theorem State.onCore_val (s : State) (c : Cl) (f : Core → Core) : (s.onCore c f).core[c.val] = f s.core[c.val] :=
  upd_same _ c f

theorem State.onCore_other (s : State) (c d : Cl) (f : Core → Core) (h : c ≠ d) : (s.onCore c f).core[d] = s.core[d] :=
  upd_other _ c d f h

theorem State.onTrk_same (s : State) (t : TrkId) (f : Trunk → Trunk) : (s.onTrk t f).trk[t] = f s.trk[t] := upd_same _ t f

@[simp] theorem State.onTrk_val (s : State) (t : TrkId) (f : Trunk → Trunk) : (s.onTrk t f).trk[t.val] = f s.trk[t.val] :=
  upd_same _ t f

theorem State.onTrk_other (s : State) (t u : TrkId) (f : Trunk → Trunk) (h : t ≠ u) : (s.onTrk t f).trk[u] = s.trk[u] :=
  upd_other _ t u f h

@[simp] theorem State.when_false (s : State) (f : State → State) : s.when false f = s := rfl
@[simp] theorem State.when_true (s : State) (f : State → State) : s.when true f = f s := rfl

@[simp] theorem State.fresh_pending (s : State) : s.fresh.pending = s.pending := rfl
@[simp] theorem State.fresh_mem (s : State) : s.fresh.mem = s.mem := rfl
@[simp] theorem State.fresh_memc (s : State) : s.fresh.memc = s.memc := rfl
@[simp] theorem State.fresh_osti (s : State) : s.fresh.osti = s.osti := rfl
@[simp] theorem State.fresh_hdr (s : State) : s.fresh.hdr = s.hdr := rfl
@[simp] theorem State.fresh_snaps (s : State) : s.fresh.snaps = s.snaps := rfl
@[simp] theorem State.fresh_arbCfg (s : State) : s.fresh.arbCfg = s.arbCfg := rfl
@[simp] theorem State.fresh_chord (s : State) : s.fresh.chord = s.chord := rfl
@[simp] theorem State.fresh_core (s : State) : s.fresh.core = s.core := rfl
@[simp] theorem State.fresh_unis (s : State) : s.fresh.unis = s.unis := rfl
@[simp] theorem State.fresh_trk (s : State) : s.fresh.trk = s.trk := rfl
@[simp] theorem State.fresh_gov (s : State) : s.fresh.gov = s.gov := rfl
@[simp] theorem State.fresh_hub (s : State) : s.fresh.hub = s.hub := rfl
@[simp] theorem State.fresh_metr (s : State) : s.fresh.metr = s.metr := rfl
@[simp] theorem State.fresh_cres (s : State) : s.fresh.cres = s.cres := rfl
@[simp] theorem State.fresh_aon (s : State) : s.fresh.aon = s.aon := rfl
@[simp] theorem State.fresh_rst (s : State) : s.fresh.rst = s.rst := rfl
@[simp] theorem State.fresh_hmbx (s : State) : s.fresh.hmbx = s.hmbx := rfl
@[simp] theorem State.fresh_drunor (s : State) : s.fresh.drunor = s.drunor := rfl
@[simp] theorem State.fresh_mirl (s : State) : s.fresh.mirl = s.mirl := rfl
@[simp] theorem State.fresh_ans (s : State) : s.fresh.ans = s.ans := rfl

end Sys2Proof.Machine
end

