-- ==== Sys2Proof/Laws/Core.lean ====
section
/-!
SUPPORT. Laws of the core's registers: g0, reads after writes, and what each small operation of a core leaves.
-/
namespace Sys2Proof.Machine

/-! ## Scalar registers (R128, R129) -/

@[simp] theorem Core.readG_zero (k : Core) : k.readG 0#5 = (0, false) := rfl

@[simp] theorem Core.writeG_zero (k : Core) (v : Word) (t : Bool) : k.writeG 0#5 v t = k := rfl

theorem updN_eq_of_lt {α : Type} {n : Nat} (v : Vector α n) (i : Nat) (f : α → α) (h : i < n) :
    updN v i f = v.set i (f v[i]) h := by simp [updN, h]

theorem getN_updN {α : Type} {n : Nat} (v : Vector α n) (i j : Nat) (f : α → α) (d : α) (hi : i < n) :
    getN (updN v i f) j d = if i = j then f v[i] else getN v j d := by
  by_cases hj : j < n
  · by_cases h : i = j
    · subst h; simp [getN, updN, hi]
    · simp [getN, updN, hi, hj, h]
  · have : i ≠ j := by omega
    simp [getN, hj, this]

theorem putBit_getLsbD {w : Nat} (x : BitVec w) (i j : Nat) (b : Bool) (hi : i < w) :
    (putBit x i b).getLsbD j = if i = j then b else x.getLsbD j := by
  unfold putBit
  by_cases h : i = j
  · subst h; cases b <;> simp [hi]
  · by_cases hj : j < w
    · have h' : ¬ j = i := fun e => h e.symm
      cases b <;> simp [h, h', hj]
    · have hx : x.getLsbD j = false := BitVec.getLsbD_of_ge x j (by omega)
      cases b <;> simp [h, hj, hx]

/-- Reading the register just written. -/
theorem Core.readG_writeG_same (k : Core) (r : RegF) (v : Word) (t : Bool) (h : r ≠ 0) : (k.writeG r v t).readG r = (v, t) := by
  have hr : r.toNat < 32 := r.isLt
  unfold Core.writeG Core.readG
  rw [if_neg h, if_neg h]
  simp only [getN_updN _ _ _ _ _ hr, putBit_getLsbD _ _ _ _ hr, if_true]

/-- Reading another register. -/
theorem Core.readG_writeG_other (k : Core) (r q : RegF) (v : Word) (t : Bool) (h : r ≠ q) :
    (k.writeG r v t).readG q = k.readG q := by
  by_cases h0 : r = 0
  · subst h0; rfl
  · have hr : r.toNat < 32 := r.isLt
    have hn : r.toNat ≠ q.toNat := fun e => h (BitVec.eq_of_toNat_eq e)
    unfold Core.writeG Core.readG
    rw [if_neg h0]
    simp only [getN_updN _ _ _ _ _ hr, putBit_getLsbD _ _ _ _ hr, if_neg hn]

@[simp] theorem Core.writeG_v (k : Core) (r : RegF) (v : Word) (t : Bool) : (k.writeG r v t).v = k.v := by
  unfold Core.writeG; split <;> rfl
@[simp] theorem Core.writeG_vTag (k : Core) (r : RegF) (v : Word) (t : Bool) : (k.writeG r v t).vTag = k.vTag := by
  unfold Core.writeG; split <;> rfl
@[simp] theorem Core.writeG_lane (k : Core) (r : RegF) (v : Word) (t : Bool) : (k.writeG r v t).lane = k.lane := by
  unfold Core.writeG; split <;> rfl
@[simp] theorem Core.writeG_pc (k : Core) (r : RegF) (v : Word) (t : Bool) : (k.writeG r v t).pc = k.pc := by
  unfold Core.writeG; split <;> rfl
@[simp] theorem Core.writeG_curLvl (k : Core) (r : RegF) (v : Word) (t : Bool) : (k.writeG r v t).curLvl = k.curLvl := by
  unfold Core.writeG; split <;> rfl
@[simp] theorem Core.writeG_ie (k : Core) (r : RegF) (v : Word) (t : Bool) : (k.writeG r v t).ie = k.ie := by
  unfold Core.writeG; split <;> rfl
@[simp] theorem Core.writeG_maskLvl (k : Core) (r : RegF) (v : Word) (t : Bool) : (k.writeG r v t).maskLvl = k.maskLvl := by
  unfold Core.writeG; split <;> rfl
@[simp] theorem Core.writeG_inLoop (k : Core) (r : RegF) (v : Word) (t : Bool) : (k.writeG r v t).inLoop = k.inLoop := by
  unfold Core.writeG; split <;> rfl
@[simp] theorem Core.writeG_epc (k : Core) (r : RegF) (v : Word) (t : Bool) : (k.writeG r v t).epc = k.epc := by
  unfold Core.writeG; split <;> rfl
@[simp] theorem Core.writeG_ecause (k : Core) (r : RegF) (v : Word) (t : Bool) : (k.writeG r v t).ecause = k.ecause := by
  unfold Core.writeG; split <;> rfl
@[simp] theorem Core.writeG_eaddr (k : Core) (r : RegF) (v : Word) (t : Bool) : (k.writeG r v t).eaddr = k.eaddr := by
  unfold Core.writeG; split <;> rfl
@[simp] theorem Core.writeG_vtable (k : Core) (r : RegF) (v : Word) (t : Bool) : (k.writeG r v t).vtable = k.vtable := by
  unfold Core.writeG; split <;> rfl
@[simp] theorem Core.writeG_loopStart (k : Core) (r : RegF) (v : Word) (t : Bool) : (k.writeG r v t).loopStart = k.loopStart := by
  unfold Core.writeG; split <;> rfl
@[simp] theorem Core.writeG_loopEnd (k : Core) (r : RegF) (v : Word) (t : Bool) : (k.writeG r v t).loopEnd = k.loopEnd := by
  unfold Core.writeG; split <;> rfl
@[simp] theorem Core.writeG_loopCount (k : Core) (r : RegF) (v : Word) (t : Bool) : (k.writeG r v t).loopCount = k.loopCount := by
  unfold Core.writeG; split <;> rfl
@[simp] theorem Core.writeG_loopBuf (k : Core) (r : RegF) (v : Word) (t : Bool) : (k.writeG r v t).loopBuf = k.loopBuf := by
  unfold Core.writeG; split <;> rfl
@[simp] theorem Core.writeG_loopPart (k : Core) (r : RegF) (v : Word) (t : Bool) : (k.writeG r v t).loopPart = k.loopPart := by
  unfold Core.writeG; split <;> rfl
@[simp] theorem Core.writeG_cycle (k : Core) (r : RegF) (v : Word) (t : Bool) : (k.writeG r v t).cycle = k.cycle := by
  unfold Core.writeG; split <;> rfl
@[simp] theorem Core.writeG_cycleSnap (k : Core) (r : RegF) (v : Word) (t : Bool) : (k.writeG r v t).cycleSnap = k.cycleSnap := by
  unfold Core.writeG; split <;> rfl
@[simp] theorem Core.writeG_frame (k : Core) (r : RegF) (v : Word) (t : Bool) : (k.writeG r v t).frame = k.frame := by
  unfold Core.writeG; split <;> rfl
@[simp] theorem Core.writeG_poisonJudged (k : Core) (r : RegF) (v : Word) (t : Bool) : (k.writeG r v t).poisonJudged = k.poisonJudged := by
  unfold Core.writeG; split <;> rfl
@[simp] theorem Core.writeG_divAbandon (k : Core) (r : RegF) (v : Word) (t : Bool) : (k.writeG r v t).divAbandon = k.divAbandon := by
  unfold Core.writeG; split <;> rfl
@[simp] theorem Core.writeG_wdogLimit (k : Core) (r : RegF) (v : Word) (t : Bool) : (k.writeG r v t).wdogLimit = k.wdogLimit := by
  unfold Core.writeG; split <;> rfl
@[simp] theorem Core.writeG_wdogStaged (k : Core) (r : RegF) (v : Word) (t : Bool) : (k.writeG r v t).wdogStaged = k.wdogStaged := by
  unfold Core.writeG; split <;> rfl
@[simp] theorem Core.writeG_wdogAt (k : Core) (r : RegF) (v : Word) (t : Bool) : (k.writeG r v t).wdogAt = k.wdogAt := by
  unfold Core.writeG; split <;> rfl
@[simp] theorem Core.writeG_icuEn (k : Core) (r : RegF) (v : Word) (t : Bool) : (k.writeG r v t).icuEn = k.icuEn := by
  unfold Core.writeG; split <;> rfl
@[simp] theorem Core.writeG_icuPend (k : Core) (r : RegF) (v : Word) (t : Bool) : (k.writeG r v t).icuPend = k.icuPend := by
  unfold Core.writeG; split <;> rfl
@[simp] theorem Core.writeG_icuLvl (k : Core) (r : RegF) (v : Word) (t : Bool) : (k.writeG r v t).icuLvl = k.icuLvl := by
  unfold Core.writeG; split <;> rfl
@[simp] theorem Core.writeG_cueReady (k : Core) (r : RegF) (v : Word) (t : Bool) : (k.writeG r v t).cueReady = k.cueReady := by
  unfold Core.writeG; split <;> rfl
@[simp] theorem Core.writeG_cueSlot (k : Core) (r : RegF) (v : Word) (t : Bool) : (k.writeG r v t).cueSlot = k.cueSlot := by
  unfold Core.writeG; split <;> rfl
@[simp] theorem Core.writeG_cueCancelWon (k : Core) (r : RegF) (v : Word) (t : Bool) : (k.writeG r v t).cueCancelWon = k.cueCancelWon := by
  unfold Core.writeG; split <;> rfl
@[simp] theorem Core.writeG_cueMerge (k : Core) (r : RegF) (v : Word) (t : Bool) : (k.writeG r v t).cueMerge = k.cueMerge := by
  unfold Core.writeG; split <;> rfl
@[simp] theorem Core.writeG_waiting (k : Core) (r : RegF) (v : Word) (t : Bool) : (k.writeG r v t).waiting = k.waiting := by
  unfold Core.writeG; split <;> rfl
@[simp] theorem Core.writeG_draining (k : Core) (r : RegF) (v : Word) (t : Bool) : (k.writeG r v t).draining = k.draining := by
  unfold Core.writeG; split <;> rfl
@[simp] theorem Core.writeG_blocked (k : Core) (r : RegF) (v : Word) (t : Bool) : (k.writeG r v t).blocked = k.blocked := by
  unfold Core.writeG; split <;> rfl
@[simp] theorem Core.writeG_doubleFault (k : Core) (r : RegF) (v : Word) (t : Bool) : (k.writeG r v t).doubleFault = k.doubleFault := by
  unfold Core.writeG; split <;> rfl
@[simp] theorem Core.writeG_late (k : Core) (r : RegF) (v : Word) (t : Bool) : (k.writeG r v t).late = k.late := by
  unfold Core.writeG; split <;> rfl
@[simp] theorem Core.writeG_egress (k : Core) (r : RegF) (v : Word) (t : Bool) : (k.writeG r v t).egress = k.egress := by
  unfold Core.writeG; split <;> rfl
@[simp] theorem Core.writeG_inReset (k : Core) (r : RegF) (v : Word) (t : Bool) : (k.writeG r v t).inReset = k.inReset := by
  unfold Core.writeG; split <;> rfl

/-! ## Lane registers -/

@[simp] theorem Core.putV_g (k : Core) (r : Nat) (v : Native) (t : Bool) : (k.putV r v t).g = k.g := rfl
@[simp] theorem Core.putV_gTag (k : Core) (r : Nat) (v : Native) (t : Bool) : (k.putV r v t).gTag = k.gTag := rfl
@[simp] theorem Core.putV_lane (k : Core) (r : Nat) (v : Native) (t : Bool) : (k.putV r v t).lane = k.lane := rfl
@[simp] theorem Core.putV_pc (k : Core) (r : Nat) (v : Native) (t : Bool) : (k.putV r v t).pc = k.pc := rfl
@[simp] theorem Core.putV_curLvl (k : Core) (r : Nat) (v : Native) (t : Bool) : (k.putV r v t).curLvl = k.curLvl := rfl
@[simp] theorem Core.putV_ie (k : Core) (r : Nat) (v : Native) (t : Bool) : (k.putV r v t).ie = k.ie := rfl
@[simp] theorem Core.putV_maskLvl (k : Core) (r : Nat) (v : Native) (t : Bool) : (k.putV r v t).maskLvl = k.maskLvl := rfl
@[simp] theorem Core.putV_inLoop (k : Core) (r : Nat) (v : Native) (t : Bool) : (k.putV r v t).inLoop = k.inLoop := rfl
@[simp] theorem Core.putV_epc (k : Core) (r : Nat) (v : Native) (t : Bool) : (k.putV r v t).epc = k.epc := rfl
@[simp] theorem Core.putV_ecause (k : Core) (r : Nat) (v : Native) (t : Bool) : (k.putV r v t).ecause = k.ecause := rfl
@[simp] theorem Core.putV_eaddr (k : Core) (r : Nat) (v : Native) (t : Bool) : (k.putV r v t).eaddr = k.eaddr := rfl
@[simp] theorem Core.putV_vtable (k : Core) (r : Nat) (v : Native) (t : Bool) : (k.putV r v t).vtable = k.vtable := rfl
@[simp] theorem Core.putV_loopStart (k : Core) (r : Nat) (v : Native) (t : Bool) : (k.putV r v t).loopStart = k.loopStart := rfl
@[simp] theorem Core.putV_loopEnd (k : Core) (r : Nat) (v : Native) (t : Bool) : (k.putV r v t).loopEnd = k.loopEnd := rfl
@[simp] theorem Core.putV_loopCount (k : Core) (r : Nat) (v : Native) (t : Bool) : (k.putV r v t).loopCount = k.loopCount := rfl
@[simp] theorem Core.putV_loopBuf (k : Core) (r : Nat) (v : Native) (t : Bool) : (k.putV r v t).loopBuf = k.loopBuf := rfl
@[simp] theorem Core.putV_loopPart (k : Core) (r : Nat) (v : Native) (t : Bool) : (k.putV r v t).loopPart = k.loopPart := rfl
@[simp] theorem Core.putV_cycle (k : Core) (r : Nat) (v : Native) (t : Bool) : (k.putV r v t).cycle = k.cycle := rfl
@[simp] theorem Core.putV_cycleSnap (k : Core) (r : Nat) (v : Native) (t : Bool) : (k.putV r v t).cycleSnap = k.cycleSnap := rfl
@[simp] theorem Core.putV_frame (k : Core) (r : Nat) (v : Native) (t : Bool) : (k.putV r v t).frame = k.frame := rfl
@[simp] theorem Core.putV_poisonJudged (k : Core) (r : Nat) (v : Native) (t : Bool) : (k.putV r v t).poisonJudged = k.poisonJudged := rfl
@[simp] theorem Core.putV_divAbandon (k : Core) (r : Nat) (v : Native) (t : Bool) : (k.putV r v t).divAbandon = k.divAbandon := rfl
@[simp] theorem Core.putV_wdogLimit (k : Core) (r : Nat) (v : Native) (t : Bool) : (k.putV r v t).wdogLimit = k.wdogLimit := rfl
@[simp] theorem Core.putV_wdogStaged (k : Core) (r : Nat) (v : Native) (t : Bool) : (k.putV r v t).wdogStaged = k.wdogStaged := rfl
@[simp] theorem Core.putV_wdogAt (k : Core) (r : Nat) (v : Native) (t : Bool) : (k.putV r v t).wdogAt = k.wdogAt := rfl
@[simp] theorem Core.putV_icuEn (k : Core) (r : Nat) (v : Native) (t : Bool) : (k.putV r v t).icuEn = k.icuEn := rfl
@[simp] theorem Core.putV_icuPend (k : Core) (r : Nat) (v : Native) (t : Bool) : (k.putV r v t).icuPend = k.icuPend := rfl
@[simp] theorem Core.putV_icuLvl (k : Core) (r : Nat) (v : Native) (t : Bool) : (k.putV r v t).icuLvl = k.icuLvl := rfl
@[simp] theorem Core.putV_cueReady (k : Core) (r : Nat) (v : Native) (t : Bool) : (k.putV r v t).cueReady = k.cueReady := rfl
@[simp] theorem Core.putV_cueSlot (k : Core) (r : Nat) (v : Native) (t : Bool) : (k.putV r v t).cueSlot = k.cueSlot := rfl
@[simp] theorem Core.putV_cueCancelWon (k : Core) (r : Nat) (v : Native) (t : Bool) : (k.putV r v t).cueCancelWon = k.cueCancelWon := rfl
@[simp] theorem Core.putV_cueMerge (k : Core) (r : Nat) (v : Native) (t : Bool) : (k.putV r v t).cueMerge = k.cueMerge := rfl
@[simp] theorem Core.putV_waiting (k : Core) (r : Nat) (v : Native) (t : Bool) : (k.putV r v t).waiting = k.waiting := rfl
@[simp] theorem Core.putV_draining (k : Core) (r : Nat) (v : Native) (t : Bool) : (k.putV r v t).draining = k.draining := rfl
@[simp] theorem Core.putV_blocked (k : Core) (r : Nat) (v : Native) (t : Bool) : (k.putV r v t).blocked = k.blocked := rfl
@[simp] theorem Core.putV_doubleFault (k : Core) (r : Nat) (v : Native) (t : Bool) : (k.putV r v t).doubleFault = k.doubleFault := rfl
@[simp] theorem Core.putV_late (k : Core) (r : Nat) (v : Native) (t : Bool) : (k.putV r v t).late = k.late := rfl
@[simp] theorem Core.putV_egress (k : Core) (r : Nat) (v : Native) (t : Bool) : (k.putV r v t).egress = k.egress := rfl
@[simp] theorem Core.putV_inReset (k : Core) (r : Nat) (v : Native) (t : Bool) : (k.putV r v t).inReset = k.inReset := rfl
@[simp] theorem Core.writeV_g (k : Core) (r : RegF) (v : Native) (t : Bool) (n : Nat) : (k.writeV r v t n).g = k.g := rfl
@[simp] theorem Core.writeV_gTag (k : Core) (r : RegF) (v : Native) (t : Bool) (n : Nat) : (k.writeV r v t n).gTag = k.gTag := rfl
@[simp] theorem Core.writeV_v (k : Core) (r : RegF) (v : Native) (t : Bool) (n : Nat) : (k.writeV r v t n).v = k.v := rfl
@[simp] theorem Core.writeV_vTag (k : Core) (r : RegF) (v : Native) (t : Bool) (n : Nat) : (k.writeV r v t n).vTag = k.vTag := rfl
@[simp] theorem Core.writeV_pc (k : Core) (r : RegF) (v : Native) (t : Bool) (n : Nat) : (k.writeV r v t n).pc = k.pc := rfl
@[simp] theorem Core.writeV_curLvl (k : Core) (r : RegF) (v : Native) (t : Bool) (n : Nat) : (k.writeV r v t n).curLvl = k.curLvl := rfl
@[simp] theorem Core.writeV_ie (k : Core) (r : RegF) (v : Native) (t : Bool) (n : Nat) : (k.writeV r v t n).ie = k.ie := rfl
@[simp] theorem Core.writeV_maskLvl (k : Core) (r : RegF) (v : Native) (t : Bool) (n : Nat) : (k.writeV r v t n).maskLvl = k.maskLvl := rfl
@[simp] theorem Core.writeV_inLoop (k : Core) (r : RegF) (v : Native) (t : Bool) (n : Nat) : (k.writeV r v t n).inLoop = k.inLoop := rfl
@[simp] theorem Core.writeV_epc (k : Core) (r : RegF) (v : Native) (t : Bool) (n : Nat) : (k.writeV r v t n).epc = k.epc := rfl
@[simp] theorem Core.writeV_ecause (k : Core) (r : RegF) (v : Native) (t : Bool) (n : Nat) : (k.writeV r v t n).ecause = k.ecause := rfl
@[simp] theorem Core.writeV_eaddr (k : Core) (r : RegF) (v : Native) (t : Bool) (n : Nat) : (k.writeV r v t n).eaddr = k.eaddr := rfl
@[simp] theorem Core.writeV_vtable (k : Core) (r : RegF) (v : Native) (t : Bool) (n : Nat) : (k.writeV r v t n).vtable = k.vtable := rfl
@[simp] theorem Core.writeV_loopStart (k : Core) (r : RegF) (v : Native) (t : Bool) (n : Nat) : (k.writeV r v t n).loopStart = k.loopStart := rfl
@[simp] theorem Core.writeV_loopEnd (k : Core) (r : RegF) (v : Native) (t : Bool) (n : Nat) : (k.writeV r v t n).loopEnd = k.loopEnd := rfl
@[simp] theorem Core.writeV_loopCount (k : Core) (r : RegF) (v : Native) (t : Bool) (n : Nat) : (k.writeV r v t n).loopCount = k.loopCount := rfl
@[simp] theorem Core.writeV_loopBuf (k : Core) (r : RegF) (v : Native) (t : Bool) (n : Nat) : (k.writeV r v t n).loopBuf = k.loopBuf := rfl
@[simp] theorem Core.writeV_loopPart (k : Core) (r : RegF) (v : Native) (t : Bool) (n : Nat) : (k.writeV r v t n).loopPart = k.loopPart := rfl
@[simp] theorem Core.writeV_cycle (k : Core) (r : RegF) (v : Native) (t : Bool) (n : Nat) : (k.writeV r v t n).cycle = k.cycle := rfl
@[simp] theorem Core.writeV_cycleSnap (k : Core) (r : RegF) (v : Native) (t : Bool) (n : Nat) : (k.writeV r v t n).cycleSnap = k.cycleSnap := rfl
@[simp] theorem Core.writeV_frame (k : Core) (r : RegF) (v : Native) (t : Bool) (n : Nat) : (k.writeV r v t n).frame = k.frame := rfl
@[simp] theorem Core.writeV_poisonJudged (k : Core) (r : RegF) (v : Native) (t : Bool) (n : Nat) : (k.writeV r v t n).poisonJudged = k.poisonJudged := rfl
@[simp] theorem Core.writeV_divAbandon (k : Core) (r : RegF) (v : Native) (t : Bool) (n : Nat) : (k.writeV r v t n).divAbandon = k.divAbandon := rfl
@[simp] theorem Core.writeV_wdogLimit (k : Core) (r : RegF) (v : Native) (t : Bool) (n : Nat) : (k.writeV r v t n).wdogLimit = k.wdogLimit := rfl
@[simp] theorem Core.writeV_wdogStaged (k : Core) (r : RegF) (v : Native) (t : Bool) (n : Nat) : (k.writeV r v t n).wdogStaged = k.wdogStaged := rfl
@[simp] theorem Core.writeV_wdogAt (k : Core) (r : RegF) (v : Native) (t : Bool) (n : Nat) : (k.writeV r v t n).wdogAt = k.wdogAt := rfl
@[simp] theorem Core.writeV_icuEn (k : Core) (r : RegF) (v : Native) (t : Bool) (n : Nat) : (k.writeV r v t n).icuEn = k.icuEn := rfl
@[simp] theorem Core.writeV_icuPend (k : Core) (r : RegF) (v : Native) (t : Bool) (n : Nat) : (k.writeV r v t n).icuPend = k.icuPend := rfl
@[simp] theorem Core.writeV_icuLvl (k : Core) (r : RegF) (v : Native) (t : Bool) (n : Nat) : (k.writeV r v t n).icuLvl = k.icuLvl := rfl
@[simp] theorem Core.writeV_cueReady (k : Core) (r : RegF) (v : Native) (t : Bool) (n : Nat) : (k.writeV r v t n).cueReady = k.cueReady := rfl
@[simp] theorem Core.writeV_cueSlot (k : Core) (r : RegF) (v : Native) (t : Bool) (n : Nat) : (k.writeV r v t n).cueSlot = k.cueSlot := rfl
@[simp] theorem Core.writeV_cueCancelWon (k : Core) (r : RegF) (v : Native) (t : Bool) (n : Nat) : (k.writeV r v t n).cueCancelWon = k.cueCancelWon := rfl
@[simp] theorem Core.writeV_cueMerge (k : Core) (r : RegF) (v : Native) (t : Bool) (n : Nat) : (k.writeV r v t n).cueMerge = k.cueMerge := rfl
@[simp] theorem Core.writeV_waiting (k : Core) (r : RegF) (v : Native) (t : Bool) (n : Nat) : (k.writeV r v t n).waiting = k.waiting := rfl
@[simp] theorem Core.writeV_draining (k : Core) (r : RegF) (v : Native) (t : Bool) (n : Nat) : (k.writeV r v t n).draining = k.draining := rfl
@[simp] theorem Core.writeV_blocked (k : Core) (r : RegF) (v : Native) (t : Bool) (n : Nat) : (k.writeV r v t n).blocked = k.blocked := rfl
@[simp] theorem Core.writeV_doubleFault (k : Core) (r : RegF) (v : Native) (t : Bool) (n : Nat) : (k.writeV r v t n).doubleFault = k.doubleFault := rfl
@[simp] theorem Core.writeV_late (k : Core) (r : RegF) (v : Native) (t : Bool) (n : Nat) : (k.writeV r v t n).late = k.late := rfl
@[simp] theorem Core.writeV_egress (k : Core) (r : RegF) (v : Native) (t : Bool) (n : Nat) : (k.writeV r v t n).egress = k.egress := rfl
@[simp] theorem Core.writeV_inReset (k : Core) (r : RegF) (v : Native) (t : Bool) (n : Nat) : (k.writeV r v t n).inReset = k.inReset := rfl

/-- A fold of lane writes leaves every other field of a core. -/
theorem putV_fold (α : Type) (p : Core → α) (hp : ∀ (k : Core) (r : Nat) (v : Native) (t : Bool), p (k.putV r v t) = p k)
    (xs : List LanePend) : ∀ k : Core, p (xs.foldl (fun k q => k.putV q.reg.val q.val q.tag) k) = p k := by
  induction xs with
  | nil => intro k; rfl
  | cons x xs ih => intro k; simp only [List.foldl_cons]; rw [ih, hp]

@[simp] theorem Core.ageLane_g (k : Core) : k.ageLane.g = k.g := by
  unfold Core.ageLane; exact putV_fold _ (fun k => k.g) (fun _ _ _ _ => rfl) _ _
@[simp] theorem Core.ageLane_gTag (k : Core) : k.ageLane.gTag = k.gTag := by
  unfold Core.ageLane; exact putV_fold _ (fun k => k.gTag) (fun _ _ _ _ => rfl) _ _
@[simp] theorem Core.ageLane_pc (k : Core) : k.ageLane.pc = k.pc := by
  unfold Core.ageLane; exact putV_fold _ (fun k => k.pc) (fun _ _ _ _ => rfl) _ _
@[simp] theorem Core.ageLane_curLvl (k : Core) : k.ageLane.curLvl = k.curLvl := by
  unfold Core.ageLane; exact putV_fold _ (fun k => k.curLvl) (fun _ _ _ _ => rfl) _ _
@[simp] theorem Core.ageLane_ie (k : Core) : k.ageLane.ie = k.ie := by
  unfold Core.ageLane; exact putV_fold _ (fun k => k.ie) (fun _ _ _ _ => rfl) _ _
@[simp] theorem Core.ageLane_maskLvl (k : Core) : k.ageLane.maskLvl = k.maskLvl := by
  unfold Core.ageLane; exact putV_fold _ (fun k => k.maskLvl) (fun _ _ _ _ => rfl) _ _
@[simp] theorem Core.ageLane_inLoop (k : Core) : k.ageLane.inLoop = k.inLoop := by
  unfold Core.ageLane; exact putV_fold _ (fun k => k.inLoop) (fun _ _ _ _ => rfl) _ _
@[simp] theorem Core.ageLane_epc (k : Core) : k.ageLane.epc = k.epc := by
  unfold Core.ageLane; exact putV_fold _ (fun k => k.epc) (fun _ _ _ _ => rfl) _ _
@[simp] theorem Core.ageLane_ecause (k : Core) : k.ageLane.ecause = k.ecause := by
  unfold Core.ageLane; exact putV_fold _ (fun k => k.ecause) (fun _ _ _ _ => rfl) _ _
@[simp] theorem Core.ageLane_eaddr (k : Core) : k.ageLane.eaddr = k.eaddr := by
  unfold Core.ageLane; exact putV_fold _ (fun k => k.eaddr) (fun _ _ _ _ => rfl) _ _
@[simp] theorem Core.ageLane_vtable (k : Core) : k.ageLane.vtable = k.vtable := by
  unfold Core.ageLane; exact putV_fold _ (fun k => k.vtable) (fun _ _ _ _ => rfl) _ _
@[simp] theorem Core.ageLane_loopStart (k : Core) : k.ageLane.loopStart = k.loopStart := by
  unfold Core.ageLane; exact putV_fold _ (fun k => k.loopStart) (fun _ _ _ _ => rfl) _ _
@[simp] theorem Core.ageLane_loopEnd (k : Core) : k.ageLane.loopEnd = k.loopEnd := by
  unfold Core.ageLane; exact putV_fold _ (fun k => k.loopEnd) (fun _ _ _ _ => rfl) _ _
@[simp] theorem Core.ageLane_loopCount (k : Core) : k.ageLane.loopCount = k.loopCount := by
  unfold Core.ageLane; exact putV_fold _ (fun k => k.loopCount) (fun _ _ _ _ => rfl) _ _
@[simp] theorem Core.ageLane_loopBuf (k : Core) : k.ageLane.loopBuf = k.loopBuf := by
  unfold Core.ageLane; exact putV_fold _ (fun k => k.loopBuf) (fun _ _ _ _ => rfl) _ _
@[simp] theorem Core.ageLane_loopPart (k : Core) : k.ageLane.loopPart = k.loopPart := by
  unfold Core.ageLane; exact putV_fold _ (fun k => k.loopPart) (fun _ _ _ _ => rfl) _ _
@[simp] theorem Core.ageLane_cycle (k : Core) : k.ageLane.cycle = k.cycle := by
  unfold Core.ageLane; exact putV_fold _ (fun k => k.cycle) (fun _ _ _ _ => rfl) _ _
@[simp] theorem Core.ageLane_cycleSnap (k : Core) : k.ageLane.cycleSnap = k.cycleSnap := by
  unfold Core.ageLane; exact putV_fold _ (fun k => k.cycleSnap) (fun _ _ _ _ => rfl) _ _
@[simp] theorem Core.ageLane_frame (k : Core) : k.ageLane.frame = k.frame := by
  unfold Core.ageLane; exact putV_fold _ (fun k => k.frame) (fun _ _ _ _ => rfl) _ _
@[simp] theorem Core.ageLane_poisonJudged (k : Core) : k.ageLane.poisonJudged = k.poisonJudged := by
  unfold Core.ageLane; exact putV_fold _ (fun k => k.poisonJudged) (fun _ _ _ _ => rfl) _ _
@[simp] theorem Core.ageLane_divAbandon (k : Core) : k.ageLane.divAbandon = k.divAbandon := by
  unfold Core.ageLane; exact putV_fold _ (fun k => k.divAbandon) (fun _ _ _ _ => rfl) _ _
@[simp] theorem Core.ageLane_wdogLimit (k : Core) : k.ageLane.wdogLimit = k.wdogLimit := by
  unfold Core.ageLane; exact putV_fold _ (fun k => k.wdogLimit) (fun _ _ _ _ => rfl) _ _
@[simp] theorem Core.ageLane_wdogStaged (k : Core) : k.ageLane.wdogStaged = k.wdogStaged := by
  unfold Core.ageLane; exact putV_fold _ (fun k => k.wdogStaged) (fun _ _ _ _ => rfl) _ _
@[simp] theorem Core.ageLane_wdogAt (k : Core) : k.ageLane.wdogAt = k.wdogAt := by
  unfold Core.ageLane; exact putV_fold _ (fun k => k.wdogAt) (fun _ _ _ _ => rfl) _ _
@[simp] theorem Core.ageLane_icuEn (k : Core) : k.ageLane.icuEn = k.icuEn := by
  unfold Core.ageLane; exact putV_fold _ (fun k => k.icuEn) (fun _ _ _ _ => rfl) _ _
@[simp] theorem Core.ageLane_icuPend (k : Core) : k.ageLane.icuPend = k.icuPend := by
  unfold Core.ageLane; exact putV_fold _ (fun k => k.icuPend) (fun _ _ _ _ => rfl) _ _
@[simp] theorem Core.ageLane_icuLvl (k : Core) : k.ageLane.icuLvl = k.icuLvl := by
  unfold Core.ageLane; exact putV_fold _ (fun k => k.icuLvl) (fun _ _ _ _ => rfl) _ _
@[simp] theorem Core.ageLane_cueReady (k : Core) : k.ageLane.cueReady = k.cueReady := by
  unfold Core.ageLane; exact putV_fold _ (fun k => k.cueReady) (fun _ _ _ _ => rfl) _ _
@[simp] theorem Core.ageLane_cueSlot (k : Core) : k.ageLane.cueSlot = k.cueSlot := by
  unfold Core.ageLane; exact putV_fold _ (fun k => k.cueSlot) (fun _ _ _ _ => rfl) _ _
@[simp] theorem Core.ageLane_cueCancelWon (k : Core) : k.ageLane.cueCancelWon = k.cueCancelWon := by
  unfold Core.ageLane; exact putV_fold _ (fun k => k.cueCancelWon) (fun _ _ _ _ => rfl) _ _
@[simp] theorem Core.ageLane_cueMerge (k : Core) : k.ageLane.cueMerge = k.cueMerge := by
  unfold Core.ageLane; exact putV_fold _ (fun k => k.cueMerge) (fun _ _ _ _ => rfl) _ _
@[simp] theorem Core.ageLane_waiting (k : Core) : k.ageLane.waiting = k.waiting := by
  unfold Core.ageLane; exact putV_fold _ (fun k => k.waiting) (fun _ _ _ _ => rfl) _ _
@[simp] theorem Core.ageLane_draining (k : Core) : k.ageLane.draining = k.draining := by
  unfold Core.ageLane; exact putV_fold _ (fun k => k.draining) (fun _ _ _ _ => rfl) _ _
@[simp] theorem Core.ageLane_blocked (k : Core) : k.ageLane.blocked = k.blocked := by
  unfold Core.ageLane; exact putV_fold _ (fun k => k.blocked) (fun _ _ _ _ => rfl) _ _
@[simp] theorem Core.ageLane_doubleFault (k : Core) : k.ageLane.doubleFault = k.doubleFault := by
  unfold Core.ageLane; exact putV_fold _ (fun k => k.doubleFault) (fun _ _ _ _ => rfl) _ _
@[simp] theorem Core.ageLane_late (k : Core) : k.ageLane.late = k.late := by
  unfold Core.ageLane; exact putV_fold _ (fun k => k.late) (fun _ _ _ _ => rfl) _ _
@[simp] theorem Core.ageLane_egress (k : Core) : k.ageLane.egress = k.egress := by
  unfold Core.ageLane; exact putV_fold _ (fun k => k.egress) (fun _ _ _ _ => rfl) _ _
@[simp] theorem Core.ageLane_inReset (k : Core) : k.ageLane.inReset = k.inReset := by
  unfold Core.ageLane; exact putV_fold _ (fun k => k.inReset) (fun _ _ _ _ => rfl) _ _
@[simp] theorem Core.next_g (k : Core) (c : Cl) : (k.next c).g = k.g := by
  simp only [Core.next]; split <;> (try split) <;> simp
@[simp] theorem Core.next_gTag (k : Core) (c : Cl) : (k.next c).gTag = k.gTag := by
  simp only [Core.next]; split <;> (try split) <;> simp
@[simp] theorem Core.next_curLvl (k : Core) (c : Cl) : (k.next c).curLvl = k.curLvl := by
  simp only [Core.next]; split <;> (try split) <;> simp
@[simp] theorem Core.next_ie (k : Core) (c : Cl) : (k.next c).ie = k.ie := by
  simp only [Core.next]; split <;> (try split) <;> simp
@[simp] theorem Core.next_maskLvl (k : Core) (c : Cl) : (k.next c).maskLvl = k.maskLvl := by
  simp only [Core.next]; split <;> (try split) <;> simp
@[simp] theorem Core.next_epc (k : Core) (c : Cl) : (k.next c).epc = k.epc := by
  simp only [Core.next]; split <;> (try split) <;> simp
@[simp] theorem Core.next_ecause (k : Core) (c : Cl) : (k.next c).ecause = k.ecause := by
  simp only [Core.next]; split <;> (try split) <;> simp
@[simp] theorem Core.next_eaddr (k : Core) (c : Cl) : (k.next c).eaddr = k.eaddr := by
  simp only [Core.next]; split <;> (try split) <;> simp
@[simp] theorem Core.next_vtable (k : Core) (c : Cl) : (k.next c).vtable = k.vtable := by
  simp only [Core.next]; split <;> (try split) <;> simp
@[simp] theorem Core.next_loopStart (k : Core) (c : Cl) : (k.next c).loopStart = k.loopStart := by
  simp only [Core.next]; split <;> (try split) <;> simp
@[simp] theorem Core.next_loopEnd (k : Core) (c : Cl) : (k.next c).loopEnd = k.loopEnd := by
  simp only [Core.next]; split <;> (try split) <;> simp
@[simp] theorem Core.next_cycle (k : Core) (c : Cl) : (k.next c).cycle = k.cycle := by
  simp only [Core.next]; split <;> (try split) <;> simp
@[simp] theorem Core.next_cycleSnap (k : Core) (c : Cl) : (k.next c).cycleSnap = k.cycleSnap := by
  simp only [Core.next]; split <;> (try split) <;> simp
@[simp] theorem Core.next_frame (k : Core) (c : Cl) : (k.next c).frame = k.frame := by
  simp only [Core.next]; split <;> (try split) <;> simp
@[simp] theorem Core.next_poisonJudged (k : Core) (c : Cl) : (k.next c).poisonJudged = k.poisonJudged := by
  simp only [Core.next]; split <;> (try split) <;> simp
@[simp] theorem Core.next_divAbandon (k : Core) (c : Cl) : (k.next c).divAbandon = k.divAbandon := by
  simp only [Core.next]; split <;> (try split) <;> simp
@[simp] theorem Core.next_wdogLimit (k : Core) (c : Cl) : (k.next c).wdogLimit = k.wdogLimit := by
  simp only [Core.next]; split <;> (try split) <;> simp
@[simp] theorem Core.next_wdogStaged (k : Core) (c : Cl) : (k.next c).wdogStaged = k.wdogStaged := by
  simp only [Core.next]; split <;> (try split) <;> simp
@[simp] theorem Core.next_wdogAt (k : Core) (c : Cl) : (k.next c).wdogAt = k.wdogAt := by
  simp only [Core.next]; split <;> (try split) <;> simp
@[simp] theorem Core.next_icuEn (k : Core) (c : Cl) : (k.next c).icuEn = k.icuEn := by
  simp only [Core.next]; split <;> (try split) <;> simp
@[simp] theorem Core.next_icuPend (k : Core) (c : Cl) : (k.next c).icuPend = k.icuPend := by
  simp only [Core.next]; split <;> (try split) <;> simp
@[simp] theorem Core.next_icuLvl (k : Core) (c : Cl) : (k.next c).icuLvl = k.icuLvl := by
  simp only [Core.next]; split <;> (try split) <;> simp
@[simp] theorem Core.next_cueReady (k : Core) (c : Cl) : (k.next c).cueReady = k.cueReady := by
  simp only [Core.next]; split <;> (try split) <;> simp
@[simp] theorem Core.next_cueSlot (k : Core) (c : Cl) : (k.next c).cueSlot = k.cueSlot := by
  simp only [Core.next]; split <;> (try split) <;> simp
@[simp] theorem Core.next_cueCancelWon (k : Core) (c : Cl) : (k.next c).cueCancelWon = k.cueCancelWon := by
  simp only [Core.next]; split <;> (try split) <;> simp
@[simp] theorem Core.next_cueMerge (k : Core) (c : Cl) : (k.next c).cueMerge = k.cueMerge := by
  simp only [Core.next]; split <;> (try split) <;> simp
@[simp] theorem Core.next_waiting (k : Core) (c : Cl) : (k.next c).waiting = k.waiting := by
  simp only [Core.next]; split <;> (try split) <;> simp
@[simp] theorem Core.next_draining (k : Core) (c : Cl) : (k.next c).draining = k.draining := by
  simp only [Core.next]; split <;> (try split) <;> simp
@[simp] theorem Core.next_blocked (k : Core) (c : Cl) : (k.next c).blocked = k.blocked := by
  simp only [Core.next]; split <;> (try split) <;> simp
@[simp] theorem Core.next_doubleFault (k : Core) (c : Cl) : (k.next c).doubleFault = k.doubleFault := by
  simp only [Core.next]; split <;> (try split) <;> simp
@[simp] theorem Core.next_late (k : Core) (c : Cl) : (k.next c).late = k.late := by
  simp only [Core.next]; split <;> (try split) <;> simp
@[simp] theorem Core.next_egress (k : Core) (c : Cl) : (k.next c).egress = k.egress := by
  simp only [Core.next]; split <;> (try split) <;> simp
@[simp] theorem Core.next_inReset (k : Core) (c : Cl) : (k.next c).inReset = k.inReset := by
  simp only [Core.next]; split <;> (try split) <;> simp
@[simp] theorem Core.jump_g (k : Core) (t : Word) : (k.jump t).g = k.g := by simp [Core.jump]
@[simp] theorem Core.jump_gTag (k : Core) (t : Word) : (k.jump t).gTag = k.gTag := by simp [Core.jump]
@[simp] theorem Core.jump_curLvl (k : Core) (t : Word) : (k.jump t).curLvl = k.curLvl := by simp [Core.jump]
@[simp] theorem Core.jump_ie (k : Core) (t : Word) : (k.jump t).ie = k.ie := by simp [Core.jump]
@[simp] theorem Core.jump_maskLvl (k : Core) (t : Word) : (k.jump t).maskLvl = k.maskLvl := by simp [Core.jump]
@[simp] theorem Core.jump_epc (k : Core) (t : Word) : (k.jump t).epc = k.epc := by simp [Core.jump]
@[simp] theorem Core.jump_ecause (k : Core) (t : Word) : (k.jump t).ecause = k.ecause := by simp [Core.jump]
@[simp] theorem Core.jump_eaddr (k : Core) (t : Word) : (k.jump t).eaddr = k.eaddr := by simp [Core.jump]
@[simp] theorem Core.jump_vtable (k : Core) (t : Word) : (k.jump t).vtable = k.vtable := by simp [Core.jump]
@[simp] theorem Core.jump_loopStart (k : Core) (t : Word) : (k.jump t).loopStart = k.loopStart := by simp [Core.jump]
@[simp] theorem Core.jump_loopEnd (k : Core) (t : Word) : (k.jump t).loopEnd = k.loopEnd := by simp [Core.jump]
@[simp] theorem Core.jump_loopCount (k : Core) (t : Word) : (k.jump t).loopCount = k.loopCount := by simp [Core.jump]
@[simp] theorem Core.jump_cycle (k : Core) (t : Word) : (k.jump t).cycle = k.cycle := by simp [Core.jump]
@[simp] theorem Core.jump_cycleSnap (k : Core) (t : Word) : (k.jump t).cycleSnap = k.cycleSnap := by simp [Core.jump]
@[simp] theorem Core.jump_frame (k : Core) (t : Word) : (k.jump t).frame = k.frame := by simp [Core.jump]
@[simp] theorem Core.jump_poisonJudged (k : Core) (t : Word) : (k.jump t).poisonJudged = k.poisonJudged := by simp [Core.jump]
@[simp] theorem Core.jump_divAbandon (k : Core) (t : Word) : (k.jump t).divAbandon = k.divAbandon := by simp [Core.jump]
@[simp] theorem Core.jump_wdogLimit (k : Core) (t : Word) : (k.jump t).wdogLimit = k.wdogLimit := by simp [Core.jump]
@[simp] theorem Core.jump_wdogStaged (k : Core) (t : Word) : (k.jump t).wdogStaged = k.wdogStaged := by simp [Core.jump]
@[simp] theorem Core.jump_wdogAt (k : Core) (t : Word) : (k.jump t).wdogAt = k.wdogAt := by simp [Core.jump]
@[simp] theorem Core.jump_icuEn (k : Core) (t : Word) : (k.jump t).icuEn = k.icuEn := by simp [Core.jump]
@[simp] theorem Core.jump_icuPend (k : Core) (t : Word) : (k.jump t).icuPend = k.icuPend := by simp [Core.jump]
@[simp] theorem Core.jump_icuLvl (k : Core) (t : Word) : (k.jump t).icuLvl = k.icuLvl := by simp [Core.jump]
@[simp] theorem Core.jump_cueReady (k : Core) (t : Word) : (k.jump t).cueReady = k.cueReady := by simp [Core.jump]
@[simp] theorem Core.jump_cueSlot (k : Core) (t : Word) : (k.jump t).cueSlot = k.cueSlot := by simp [Core.jump]
@[simp] theorem Core.jump_cueCancelWon (k : Core) (t : Word) : (k.jump t).cueCancelWon = k.cueCancelWon := by simp [Core.jump]
@[simp] theorem Core.jump_cueMerge (k : Core) (t : Word) : (k.jump t).cueMerge = k.cueMerge := by simp [Core.jump]
@[simp] theorem Core.jump_waiting (k : Core) (t : Word) : (k.jump t).waiting = k.waiting := by simp [Core.jump]
@[simp] theorem Core.jump_draining (k : Core) (t : Word) : (k.jump t).draining = k.draining := by simp [Core.jump]
@[simp] theorem Core.jump_blocked (k : Core) (t : Word) : (k.jump t).blocked = k.blocked := by simp [Core.jump]
@[simp] theorem Core.jump_doubleFault (k : Core) (t : Word) : (k.jump t).doubleFault = k.doubleFault := by simp [Core.jump]
@[simp] theorem Core.jump_late (k : Core) (t : Word) : (k.jump t).late = k.late := by simp [Core.jump]
@[simp] theorem Core.jump_egress (k : Core) (t : Word) : (k.jump t).egress = k.egress := by simp [Core.jump]
@[simp] theorem Core.jump_inReset (k : Core) (t : Word) : (k.jump t).inReset = k.inReset := by simp [Core.jump]

@[simp] theorem Core.jump_pc (k : Core) (t : Word) : (k.jump t).pc = t := rfl

/-- Outside a loop the next instruction is the next word. -/
theorem Core.next_pc (k : Core) (c : Cl) (h : k.inLoop = false) : (k.next c).pc = k.pc + 4 := by
  simp [Core.next, h]

/-- An instruction's reads see the register it wrote, after the PC has moved on. -/
@[simp] theorem Core.readG_next (k : Core) (c : Cl) (r : RegF) : (k.next c).readG r = k.readG r := by
  simp [Core.readG]

@[simp] theorem Core.readG_jump (k : Core) (t : Word) (r : RegF) : (k.jump t).readG r = k.readG r := by
  simp [Core.readG]

/-! ## The end of an instruction -/

theorem State.finish_same (s : State) (c : Cl) (f : Core → Core) : (s.finish c f).core[c] = (f s.core[c]).next c :=
  State.onCore_same s c _

@[simp] theorem State.finish_val (s : State) (c : Cl) (f : Core → Core) :
    (s.finish c f).core[c.val] = (f s.core[c.val]).next c := State.onCore_same s c _

theorem State.finish_other (s : State) (c d : Cl) (f : Core → Core) (h : c ≠ d) : (s.finish c f).core[d] = s.core[d] :=
  State.onCore_other s c d _ h

@[simp] theorem State.finish_pending (s : State) (c : Cl) (f : Core → Core) : (s.finish c f).pending = s.pending := rfl
@[simp] theorem State.finish_mem (s : State) (c : Cl) (f : Core → Core) : (s.finish c f).mem = s.mem := rfl
@[simp] theorem State.finish_memc (s : State) (c : Cl) (f : Core → Core) : (s.finish c f).memc = s.memc := rfl
@[simp] theorem State.finish_osti (s : State) (c : Cl) (f : Core → Core) : (s.finish c f).osti = s.osti := rfl
@[simp] theorem State.finish_hdr (s : State) (c : Cl) (f : Core → Core) : (s.finish c f).hdr = s.hdr := rfl
@[simp] theorem State.finish_snaps (s : State) (c : Cl) (f : Core → Core) : (s.finish c f).snaps = s.snaps := rfl
@[simp] theorem State.finish_arbCfg (s : State) (c : Cl) (f : Core → Core) : (s.finish c f).arbCfg = s.arbCfg := rfl
@[simp] theorem State.finish_chord (s : State) (c : Cl) (f : Core → Core) : (s.finish c f).chord = s.chord := rfl
@[simp] theorem State.finish_unis (s : State) (c : Cl) (f : Core → Core) : (s.finish c f).unis = s.unis := rfl
@[simp] theorem State.finish_trk (s : State) (c : Cl) (f : Core → Core) : (s.finish c f).trk = s.trk := rfl
@[simp] theorem State.finish_gov (s : State) (c : Cl) (f : Core → Core) : (s.finish c f).gov = s.gov := rfl
@[simp] theorem State.finish_hub (s : State) (c : Cl) (f : Core → Core) : (s.finish c f).hub = s.hub := rfl
@[simp] theorem State.finish_metr (s : State) (c : Cl) (f : Core → Core) : (s.finish c f).metr = s.metr := rfl
@[simp] theorem State.finish_cres (s : State) (c : Cl) (f : Core → Core) : (s.finish c f).cres = s.cres := rfl
@[simp] theorem State.finish_aon (s : State) (c : Cl) (f : Core → Core) : (s.finish c f).aon = s.aon := rfl
@[simp] theorem State.finish_rst (s : State) (c : Cl) (f : Core → Core) : (s.finish c f).rst = s.rst := rfl
@[simp] theorem State.finish_hmbx (s : State) (c : Cl) (f : Core → Core) : (s.finish c f).hmbx = s.hmbx := rfl
@[simp] theorem State.finish_drunor (s : State) (c : Cl) (f : Core → Core) : (s.finish c f).drunor = s.drunor := rfl
@[simp] theorem State.finish_mirl (s : State) (c : Cl) (f : Core → Core) : (s.finish c f).mirl = s.mirl := rfl
@[simp] theorem State.finish_ans (s : State) (c : Cl) (f : Core → Core) : (s.finish c f).ans = s.ans := rfl
@[simp] theorem State.finish_free (s : State) (c : Cl) (f : Core → Core) : (s.finish c f).free = s.free := rfl

end Sys2Proof.Machine
end

