-- ==== Sys2Proof/Laws/Memory.lean ====
section
/-!
SUPPORT. Laws of the memories: a read after a write, other words unchanged, and the canonical form, which every operation of
Machine/Memory.lean keeps.
-/
namespace Sys2Proof.Machine

/-! ## Lists of cells -/

theorem lookup_drop_same (d : Cell) (i : Nat) (xs : List (Nat × Cell)) : lookupCell d i (dropCell i xs) = d := by
  induction xs with
  | nil => rfl
  | cons x xs ih =>
    obtain ⟨j, c⟩ := x
    by_cases h : j = i
    · subst h; simpa [dropCell] using ih
    · have h' : ¬ i = j := fun e => h e.symm
      simpa [dropCell, h, lookupCell, h'] using ih

theorem lookup_drop_other (d : Cell) (i k : Nat) (xs : List (Nat × Cell)) (hk : k ≠ i) :
    lookupCell d k (dropCell i xs) = lookupCell d k xs := by
  induction xs with
  | nil => rfl
  | cons x xs ih =>
    obtain ⟨j, c⟩ := x
    by_cases h : j = i
    · subst h; simpa [dropCell, lookupCell, hk] using ih
    · by_cases h2 : k = j
      · subst h2; simp [dropCell, h, lookupCell]
      · simpa [dropCell, h, lookupCell, h2] using ih

theorem lookup_insert (d : Cell) (i k : Nat) (c : Cell) (xs : List (Nat × Cell)) (hi : ∀ p ∈ xs, p.1 ≠ i) :
    lookupCell d k (insertCell i c xs) = if k = i then c else lookupCell d k xs := by
  induction xs with
  | nil => simp [insertCell, lookupCell]
  | cons x xs ih =>
    obtain ⟨j, e⟩ := x
    have hj : j ≠ i := hi (j, e) List.mem_cons_self
    have ih := ih (fun p hp => hi p (by simp [hp]))
    by_cases hlt : i < j
    · simp [insertCell, hlt, lookupCell]
    · by_cases hk : k = i
      · subst hk
        have : ¬ k = j := fun e => hj e.symm
        simp [insertCell, hlt, lookupCell, this, ih]
      · simp [insertCell, hlt, lookupCell, ih, hk]

theorem drop_mem (i : Nat) (xs : List (Nat × Cell)) : ∀ p ∈ dropCell i xs, p.1 ≠ i := by
  intro p hp; simpa using (List.mem_filter.mp hp).2

/-- A read after a write of a cell. -/
theorem lookup_put (d : Cell) (i k : Nat) (c : Cell) (xs : List (Nat × Cell)) :
    lookupCell d k (putCell d i c xs) = if k = i then c else lookupCell d k xs := by
  unfold putCell
  by_cases h : c = d
  · subst h
    by_cases hk : k = i
    · subst hk; simp [lookup_drop_same]
    · simp [hk, lookup_drop_other _ _ _ _ hk]
  · rw [if_neg h, lookup_insert _ _ _ _ _ (drop_mem i xs)]
    by_cases hk : k = i
    · simp [hk]
    · simp [hk, lookup_drop_other _ _ _ _ hk]

/-! ## The canonical form -/

/-- Rising, read as an ordering of every later entry. -/
theorem rising_iff (xs : List (Nat × Cell)) : rising xs = true ↔ xs.Pairwise (fun a b => a.1 < b.1) := by
  induction xs with
  | nil => simp [rising]
  | cons a xs ih =>
    cases xs with
    | nil => simp [rising]
    | cons b xs =>
      rw [List.pairwise_cons]
      simp only [rising, Bool.and_eq_true, decide_eq_true_eq, ih]
      constructor
      · rintro ⟨h, h2⟩
        refine ⟨fun p hp => ?_, h2⟩
        rcases List.mem_cons.mp hp with rfl | hp
        · exact h
        · exact Nat.lt_trans h ((List.pairwise_cons.mp h2).1 p hp)
      · rintro ⟨h, h2⟩
        exact ⟨h b (by simp), h2⟩

theorem drop_rising (i : Nat) (xs : List (Nat × Cell)) (h : rising xs = true) : rising (dropCell i xs) = true := by
  rw [rising_iff] at *
  exact h.sublist List.filter_sublist

theorem insert_mem (i : Nat) (c : Cell) (xs : List (Nat × Cell)) (p : Nat × Cell) :
    p ∈ insertCell i c xs ↔ p = (i, c) ∨ p ∈ xs := by
  induction xs with
  | nil => simp [insertCell]
  | cons x xs ih =>
    obtain ⟨j, e⟩ := x
    by_cases hlt : i < j
    · simp [insertCell, hlt]
    · simp only [insertCell, hlt, if_false, List.mem_cons, ih]
      exact or_left_comm

theorem insert_rising (i : Nat) (c : Cell) (xs : List (Nat × Cell)) (h : rising xs = true) (hi : ∀ p ∈ xs, p.1 ≠ i) :
    rising (insertCell i c xs) = true := by
  rw [rising_iff] at *
  induction xs with
  | nil => simp [insertCell]
  | cons x xs ih =>
    obtain ⟨j, e⟩ := x
    have hj : j ≠ i := hi (j, e) List.mem_cons_self
    rw [List.pairwise_cons] at h
    by_cases hlt : i < j
    · simp only [insertCell, hlt, if_true]
      refine List.pairwise_cons.mpr ⟨fun p hp => ?_, List.pairwise_cons.mpr h⟩
      rcases List.mem_cons.mp hp with rfl | hp
      · exact hlt
      · exact Nat.lt_trans hlt (h.1 p hp)
    · simp only [insertCell, hlt, if_false]
      refine List.pairwise_cons.mpr ⟨fun p hp => ?_, ih h.2 (fun p hp => hi p (by simp [hp]))⟩
      rcases (insert_mem i c xs p).mp hp with rfl | hp
      · show j < i; omega
      · exact h.1 p hp

/-- A write keeps the canonical form. -/
theorem Ram.put_wf (d : Cell) (r : Ram) (i : Nat) (c : Cell) (h : r.wf d = true) : (r.put d i c).wf d = true := by
  simp only [Ram.wf, Ram.put, Bool.and_eq_true, List.all_eq_true] at *
  obtain ⟨h1, h2⟩ := h
  unfold putCell
  by_cases hc : c = d
  · rw [if_pos hc]
    exact ⟨drop_rising i _ h1, fun p hp => h2 p (List.mem_filter.mp hp).1⟩
  · rw [if_neg hc]
    refine ⟨insert_rising i c _ (drop_rising i _ h1) (drop_mem i _), fun p hp => ?_⟩
    rcases (insert_mem i c _ p).mp hp with rfl | hp
    · simpa using hc
    · exact h2 p (List.mem_filter.mp hp).1

/-- An empty memory has the canonical form. -/
@[simp] theorem Ram.empty_wf (d : Cell) : Ram.empty.wf d = true := rfl

/-- Reads of a memory after a write. -/
theorem Ram.get_put (d : Cell) (r : Ram) (i k : Nat) (c : Cell) : (r.put d i c).get d k = if k = i then c else r.get d k :=
  lookup_put d i k c r.cells

/-! ## The operations keep it -/

/-- The canonical form, memory by memory. -/
theorem memWf_iff (s : State) : s.memWf = true ↔
    (∀ c : Cl, s.mem.itcm[c].wf zeroCell = true) ∧ (∀ c : Cl, s.mem.dtcm[c].wf zeroCell = true) ∧
      s.mem.chord.wf zeroCell = true ∧ (∀ f : Fin 2, s.mem.score[f].wf (s.dflt (.score f)) = true) ∧
      s.mem.verdict.wf zeroCell = true := by
  have hcl : ∀ c : Cl, c ∈ clusters := by decide
  unfold State.memWf
  simp only [Bool.and_eq_true, List.all_eq_true]
  constructor
  · rintro ⟨⟨⟨⟨h1, h3⟩, h4⟩, h5⟩, h6⟩
    refine ⟨fun c => (h1 c (hcl c)).1, fun c => (h1 c (hcl c)).2, h3, fun f => ?_, h6⟩
    match f with
    | 0 => exact h4
    | 1 => exact h5
  · rintro ⟨h1, h2, h3, h4, h6⟩
    exact ⟨⟨⟨⟨fun c _ => ⟨h1 c, h2 c⟩, h3⟩, h4 0⟩, h4 1⟩, h6⟩

/-- A property of every memory of a vector is kept when one that has it replaces another. -/
theorem upd_keeps {α : Type} {n : Nat} (P : α → Prop) (v : Vector α n) (i : Fin n) (f : α → α) (h : ∀ j : Fin n, P v[j])
    (hf : P (f v[i])) (j : Fin n) : P (upd v i f)[j] := by
  rw [upd_at]
  by_cases e : i = j
  · subst e; rw [if_pos rfl]; exact hf
  · rw [if_neg e]; exact h j

/-- memWf reads nothing but the memories. -/
theorem memWf_congr (s t : State) (h : s.mem = t.mem) : s.memWf = t.memWf := by
  simp only [State.memWf, State.dflt, h]

/-- A word replaced in an array. -/
theorem setArrayCell_memWf (s : State) (l : Loc) (c : Cell) (h : s.memWf = true) : (s.setArrayCell l c).memWf = true := by
  rw [memWf_iff] at *
  obtain ⟨h1, h2, h3, h4, h5⟩ := h
  obtain ⟨m, i⟩ := l
  cases m with
  | itcm k => exact ⟨upd_keeps (fun r => Ram.wf zeroCell r = true) s.mem.itcm k _ h1 (Ram.put_wf _ _ _ _ (h1 k)), h2, h3, h4, h5⟩
  | dtcm k => exact ⟨h1, upd_keeps (fun r => Ram.wf zeroCell r = true) s.mem.dtcm k _ h2 (Ram.put_wf _ _ _ _ (h2 k)), h3, h4, h5⟩
  | chord => exact ⟨h1, h2, Ram.put_wf _ _ _ _ h3, h4, h5⟩
  | score f =>
    refine ⟨h1, h2, h3, fun g => ?_, h5⟩
    show (upd s.mem.score f _)[g].wf (s.dflt (.score g)) = true
    rw [upd_at]
    by_cases e : f = g
    · subst e; rw [if_pos rfl]; exact Ram.put_wf _ _ _ _ (h4 f)
    · rw [if_neg e]; exact h4 g
  | verdict => exact ⟨h1, h2, h3, h4, Ram.put_wf _ _ _ _ h5⟩
  | rom => exact ⟨h1, h2, h3, h4, h5⟩
  | xip => exact ⟨h1, h2, h3, h4, h5⟩

theorem setCell_memWf (s : State) (l : Loc) (c : Cell) (h : s.memWf = true) : (s.setCell l c).memWf = true := by
  unfold State.setCell
  split
  · split
    · exact (memWf_congr _ s rfl).trans h
    · exact setArrayCell_memWf _ _ _ h
  · exact setArrayCell_memWf _ _ _ h

/-- A whole word stored, with or without an injection. -/
theorem storeWord_memWf (s : State) (l : Loc) (d : Native) (p : Bool) (h : s.memWf = true) : (s.storeWord l d p).memWf = true := by
  unfold State.storeWord
  split
  · exact (memWf_congr _ _ rfl).trans (setCell_memWf _ _ _ h)
  · exact setCell_memWf _ _ _ h

/-- A property of a state is kept by a sequence of operations that each keep it. -/
theorem each_keeps {α : Type} (P : State → Prop) (xs : List α) (f : α → State → State) (hf : ∀ x s, P s → P (f x s)) :
    ∀ s, P s → P (s.each xs f) := by
  induction xs with
  | nil => intro s h; exact h
  | cons x xs ih => intro s h; exact ih _ (hf x s h)

theorem when_keeps (P : State → Prop) (b : Bool) (f : State → State) (hf : ∀ s, P s → P (f s)) (s : State) (h : P s) :
    P (s.when b f) := by
  cases b
  · exact h
  · exact hf s h

/-! ## What accounting leaves -/

theorem cntMemc_mem (s : State) (i k : Nat) : (s.cntMemc i k).mem = s.mem := by
  unfold State.cntMemc State.ovf State.when; split <;> rfl

theorem offerCe_mem (s : State) (e : Native) : (s.offerCe e).mem = s.mem := by
  unfold State.offerCe; split <;> rfl

/-- Accounting of a read changes no memory. -/
@[simp] theorem account_mem (s : State) (m : Byte) (a : BitVec 24) (n : Nat) (y : BitVec 9) (i : Init) :
    (s.account m a n y i).mem = s.mem := by
  unfold State.account
  split
  · rfl
  · exact (offerCe_mem _ _).trans (cntMemc_mem _ _ _)
  · exact (offerCe_mem _ _).trans (cntMemc_mem _ _ _)
  · exact cntMemc_mem _ _ _
  · exact cntMemc_mem _ _ _
  · exact cntMemc_mem _ _ _

@[simp] theorem noteRead_mem (s : State) (l : Loc) (i : Init) : (s.noteRead l i).mem = s.mem := account_mem ..

theorem each_mem {α : Type} (xs : List α) (f : α → State → State) (hf : ∀ x s, (f x s).mem = s.mem) :
    ∀ s : State, (s.each xs f).mem = s.mem := by
  induction xs with
  | nil => intro s; rfl
  | cons x xs ih => intro s; exact (ih _).trans (hf x s)

@[simp] theorem noteBytes_mem (s : State) (m : MemName) (o n : Nat) (i : Init) : (s.noteBytes m o n i).mem = s.mem :=
  each_mem _ _ (fun _ _ => noteRead_mem ..) s

/-- A store of any width and kind keeps the canonical form. -/
theorem storeParts_memWf (s : State) (k : StoreKind) (ps : List StorePart) (p : Bool) (i : Init) (h : s.memWf = true) :
    (s.storeParts k ps p i).1.memWf = true := by
  have hn : ∀ (x : StorePart) (t : State), State.memWf t = true → State.memWf (let t1 := t.noteRead x.loc i
      let c := t.cell x.loc
      if decodeSyndrome c.syn = .poisoned then t1.addUe (memLogEntry t1 x.loc.a24 x.loc.code c.syn 3 i.code) else t1) = true := by
    intro x t ht
    have : (t.noteRead x.loc i).memWf = true := (memWf_congr _ _ (noteRead_mem ..)).trans ht
    dsimp only
    split
    · exact (memWf_congr _ _ rfl).trans this
    · exact this
  unfold State.storeParts
  dsimp only
  split
  · exact each_keeps (fun s => s.memWf = true) _ _ hn s h
  · exact each_keeps (fun s => s.memWf = true) _ _ (fun x t ht => storeWord_memWf _ _ _ _ ht) _
      (each_keeps (fun s => s.memWf = true) _ _ hn s h)

/-! ## Zero fills -/

/-- The rest of a zero fill, an injection that strikes it included, keeps the canonical form. -/
theorem filled_memWf (s : State) (p : Loc → Bool) (h : s.memWf = true) : (State.filled s p).memWf = true := by
  have h1 : (s.zeroSave p).memWf = true := (memWf_congr _ _ rfl).trans h
  unfold State.filled State.fillInject State.when
  split
  · split
    · exact storeWord_memWf _ _ _ _ h1
    · exact h1
  · exact h1

theorem zeroTcm_memWf (s : State) (c : Cl) (h : s.memWf = true) : (s.zeroTcm c).memWf = true := by
  refine filled_memWf _ _ ?_
  rw [memWf_iff] at *
  obtain ⟨h1, h2, h3, h4, h5⟩ := h
  exact ⟨upd_keeps (fun r => Ram.wf zeroCell r = true) s.mem.itcm c _ h1 rfl,
    upd_keeps (fun r => Ram.wf zeroCell r = true) s.mem.dtcm c _ h2 rfl, h3, h4, h5⟩

theorem filter_wf (d : Cell) (xs : List (Nat × Cell)) (p : Nat × Cell → Bool) (h : Ram.wf d ⟨xs⟩ = true) :
    Ram.wf d ⟨xs.filter p⟩ = true := by
  simp only [Ram.wf, Bool.and_eq_true, List.all_eq_true] at *
  refine ⟨?_, fun q hq => h.2 q (List.mem_filter.mp hq).1⟩
  rw [rising_iff] at *
  exact h.1.sublist List.filter_sublist

theorem zeroSlice_memWf (s : State) (i : SliceId) (h : s.memWf = true) : (s.zeroSlice i).memWf = true := by
  refine filled_memWf _ _ ?_
  rw [memWf_iff] at *
  obtain ⟨h1, h2, h3, h4, h5⟩ := h
  exact ⟨h1, h2, filter_wf _ _ _ h3, h4, h5⟩

theorem zeroAll_memWf (s : State) : (s.zeroAll).memWf = true := by
  refine filled_memWf _ _ ?_
  rw [memWf_iff]
  have e : ∀ (n : Nat) (i : Fin n), (Vector.replicate n Ram.empty)[i] = Ram.empty := fun n i => by simp
  refine ⟨fun c => ?_, fun c => ?_, rfl, fun f => ?_, rfl⟩
  · show (Vector.replicate 5 Ram.empty)[c].wf zeroCell = true
    rw [e]; rfl
  · show (Vector.replicate 5 Ram.empty)[c].wf zeroCell = true
    rw [e]; rfl
  · show (Vector.replicate 2 Ram.empty)[f].wf _ = true
    rw [e]; rfl

/-- Memory after reset has the canonical form. -/
theorem reset_memWf : State.reset.memWf = true := by decide

/-! ## A read after a store -/

/-- A word stored outside a saved region, with no injection armed, reads back; other words of the same array are unchanged. -/
theorem arrayCell_setArrayCell_itcm (s : State) (c : Cl) (i k : Nat) (x : Cell) :
    (s.setArrayCell ⟨.itcm c, i⟩ x).arrayCell ⟨.itcm c, k⟩ = if k = i then x else s.arrayCell ⟨.itcm c, k⟩ := by
  show (upd s.mem.itcm c _)[c].get zeroCell k = _
  rw [upd_same]; exact Ram.get_put ..

theorem arrayCell_setArrayCell_dtcm (s : State) (c : Cl) (i k : Nat) (x : Cell) :
    (s.setArrayCell ⟨.dtcm c, i⟩ x).arrayCell ⟨.dtcm c, k⟩ = if k = i then x else s.arrayCell ⟨.dtcm c, k⟩ := by
  show (upd s.mem.dtcm c _)[c].get zeroCell k = _
  rw [upd_same]; exact Ram.get_put ..

theorem arrayCell_setArrayCell_verdict (s : State) (i k : Nat) (x : Cell) :
    (s.setArrayCell ⟨.verdict, i⟩ x).arrayCell ⟨.verdict, k⟩ = if k = i then x else s.arrayCell ⟨.verdict, k⟩ :=
  Ram.get_put ..

theorem arrayCell_setArrayCell_chord (s : State) (i k : Nat) (x : Cell) :
    (s.setArrayCell ⟨.chord, i⟩ x).arrayCell ⟨.chord, k⟩ = if k = i then x else s.arrayCell ⟨.chord, k⟩ :=
  Ram.get_put ..

end Sys2Proof.Machine
end

