-- ==== Sys2Proof/Laws/Issue.lean ====
section
/-!
SUPPORT. One lemma for each shared form of an instruction: what it answers when the core can issue it, and the only ways it can
end. Proofs about single instructions cite these and unfold neither issue nor fetch.
-/
namespace Sys2Proof.Machine

/-! ## The fetch -/

/-- What the accounting of a read leaves alone. -/
structure OnlyCounted (s t : State) : Prop where
  core : t.core = s.core
  mem : t.mem = s.mem
  free : t.free = s.free
  osti : t.osti = s.osti
  chord : t.chord = s.chord
  unis : t.unis = s.unis
  cres : t.cres = s.cres
  metr : t.metr = s.metr
  gov : t.gov = s.gov
  trk : t.trk = s.trk
  pending : t.pending = s.pending
  rst : t.rst = s.rst
  hmbx : t.hmbx = s.hmbx
  drunor : t.drunor = s.drunor
  mirl : t.mirl = s.mirl
  aon : t.aon = s.aon

theorem OnlyCounted.refl (s : State) : OnlyCounted s s := ⟨rfl, rfl, rfl, rfl, rfl, rfl, rfl, rfl, rfl, rfl, rfl, rfl, rfl, rfl, rfl, rfl⟩

theorem OnlyCounted.trans {s t u : State} (h : OnlyCounted s t) (k : OnlyCounted t u) : OnlyCounted s u :=
  ⟨k.core.trans h.core, k.mem.trans h.mem, k.free.trans h.free, k.osti.trans h.osti, k.chord.trans h.chord,
    k.unis.trans h.unis, k.cres.trans h.cres, k.metr.trans h.metr, k.gov.trans h.gov, k.trk.trans h.trk,
    k.pending.trans h.pending, k.rst.trans h.rst, k.hmbx.trans h.hmbx, k.drunor.trans h.drunor, k.mirl.trans h.mirl,
    k.aon.trans h.aon⟩

theorem cntMemc_onlyCounted (s : State) (i k : Nat) : OnlyCounted s (s.cntMemc i k) := by
  unfold State.cntMemc State.ovf State.when
  split <;> exact ⟨rfl, rfl, rfl, rfl, rfl, rfl, rfl, rfl, rfl, rfl, rfl, rfl, rfl, rfl, rfl, rfl⟩

theorem offerCe_onlyCounted (s : State) (e : Native) : OnlyCounted s (s.offerCe e) := by
  unfold State.offerCe
  split <;> exact ⟨rfl, rfl, rfl, rfl, rfl, rfl, rfl, rfl, rfl, rfl, rfl, rfl, rfl, rfl, rfl, rfl⟩

theorem addUe_onlyCounted (s : State) (e : Native) : OnlyCounted s (s.addUe e) :=
  ⟨rfl, rfl, rfl, rfl, rfl, rfl, rfl, rfl, rfl, rfl, rfl, rfl, rfl, rfl, rfl, rfl⟩

theorem detect_onlyCounted (s : State) (f : FaultSource) (n : Nat) (w : Word) : OnlyCounted s (s.detect f n w) :=
  ⟨rfl, rfl, rfl, rfl, rfl, rfl, rfl, rfl, rfl, rfl, rfl, rfl, rfl, rfl, rfl, rfl⟩

/-- A read that met a syndrome changes counters, logs and pending reports, nothing else. -/
theorem account_onlyCounted (s : State) (m : Byte) (a : BitVec 24) (n : Nat) (y : BitVec 9) (i : Init) :
    OnlyCounted s (s.account m a n y i) := by
  unfold State.account
  split
  · exact .refl s
  · exact ((cntMemc_onlyCounted s 0 1).trans (offerCe_onlyCounted _ _)).trans (detect_onlyCounted _ _ _ _)
  · exact ((cntMemc_onlyCounted s 0 1).trans (offerCe_onlyCounted _ _)).trans (detect_onlyCounted _ _ _ _)
  · exact ((cntMemc_onlyCounted s 2 1).trans (addUe_onlyCounted _ _)).trans (detect_onlyCounted _ _ _ _)
  · exact cntMemc_onlyCounted s 3 1
  · exact ((cntMemc_onlyCounted s 1 1).trans (addUe_onlyCounted _ _)).trans (detect_onlyCounted _ _ _ _)

theorem each_onlyCounted {α : Type} (xs : List α) (f : α → State → State) (hf : ∀ x s, OnlyCounted s (f x s)) :
    ∀ s : State, OnlyCounted s (s.each xs f) := by
  induction xs with
  | nil => exact fun s => .refl s
  | cons x xs ih => exact fun s => (hf x s).trans (ih (f x s))

theorem noteBytes_onlyCounted (s : State) (m : MemName) (o n : Nat) (i : Init) : OnlyCounted s (s.noteBytes m o n i) :=
  each_onlyCounted _ _ (fun _ t => account_onlyCounted t _ _ _ _ _) s

theorem fetched_onlyCounted (s : State) (c : Cl) : OnlyCounted s (s.fetched c) := by
  unfold State.fetched
  split
  · exact .refl s
  · split
    · exact noteBytes_onlyCounted _ _ _ _ _
    · exact .refl s

@[simp] theorem fetched_core (s : State) (c : Cl) : (s.fetched c).core = s.core := (fetched_onlyCounted s c).core
@[simp] theorem fetched_mem (s : State) (c : Cl) : (s.fetched c).mem = s.mem := (fetched_onlyCounted s c).mem
@[simp] theorem fetched_free (s : State) (c : Cl) : (s.fetched c).free = s.free := (fetched_onlyCounted s c).free
@[simp] theorem fetched_osti (s : State) (c : Cl) : (s.fetched c).osti = s.osti := (fetched_onlyCounted s c).osti
@[simp] theorem fetched_chord (s : State) (c : Cl) : (s.fetched c).chord = s.chord := (fetched_onlyCounted s c).chord
@[simp] theorem fetched_unis (s : State) (c : Cl) : (s.fetched c).unis = s.unis := (fetched_onlyCounted s c).unis
@[simp] theorem fetched_cres (s : State) (c : Cl) : (s.fetched c).cres = s.cres := (fetched_onlyCounted s c).cres
@[simp] theorem fetched_metr (s : State) (c : Cl) : (s.fetched c).metr = s.metr := (fetched_onlyCounted s c).metr
@[simp] theorem fetched_gov (s : State) (c : Cl) : (s.fetched c).gov = s.gov := (fetched_onlyCounted s c).gov
@[simp] theorem fetched_trk (s : State) (c : Cl) : (s.fetched c).trk = s.trk := (fetched_onlyCounted s c).trk
@[simp] theorem fetched_pending (s : State) (c : Cl) : (s.fetched c).pending = s.pending := (fetched_onlyCounted s c).pending

/-! ## Issue -/

/-- A core that can issue: a legal instruction, allowed where it stands, has its effect on the fetched state. -/
theorem issue_go (s : State) (c : Cl) (w : Word) (legal loopOk : Bool) (go : State → State) (h : s.canIssue c = true)
    (hl : legal = true) (hk : s.core[c].inLoop = false ∨ loopOk = true) :
    s.issue c w legal loopOk go = go (s.fetched c) := by
  subst hl
  unfold State.canIssue at h
  rw [Bool.and_eq_true] at h
  obtain ⟨hr, hf⟩ := h
  unfold State.issue
  rw [if_pos hr]
  have hb : ∀ t : State, t.core = s.core → (if !true then t.excIllegal c w
      else if t.core[c].inLoop && !loopOk then t.excIllegalLoop c w else go t) = go t := by
    intro t ht
    simp only [Bool.not_true, Bool.false_eq_true, if_false]
    rw [ht]
    rcases hk with hk | hk
    · rw [hk]; rfl
    · rw [hk, Bool.not_true, Bool.and_false]; rfl
  have hc := fetched_core s c
  unfold State.fetch
  unfold State.fetched at hc ⊢
  unfold State.fetches at hf
  by_cases hx : (s.core[c].inLoop && s.core[c].loopBuf) = true
  · simp only [hx, if_true]
    exact hb s rfl
  · rw [Bool.not_eq_true] at hx
    simp only [hx, Bool.false_or, Bool.false_eq_true, if_false] at hf hc ⊢
    split at hf
    · rename_i m off hm
      rw [Bool.and_eq_true, Bool.and_eq_true, Bool.not_eq_true'] at hf
      obtain ⟨⟨h1, h2⟩, h3⟩ := hf
      simp only [h1, h2, h3, Bool.and_self, if_true, Bool.false_eq_true, if_false, hm] at hc ⊢
      exact hb _ hc
    · cases hf

/-- The only ways an instruction can end: it stalls, it takes an exception, or it has its effect. -/
theorem issue_cases (P : State → Prop) (s : State) (c : Cl) (w : Word) (legal loopOk : Bool) (go : State → State)
    (stall : P s) (poison : P ((s.fetched c).excPoison c 4 s.core[c].pc)) (bus : P (s.excFetch c s.core[c].pc))
    (illegal : P ((s.fetched c).excIllegal c w)) (inLoop : P ((s.fetched c).excIllegalLoop c w))
    (effect : P (go (s.fetched c))) : P (s.issue c w legal loopOk go) := by
  unfold State.issue
  split
  · unfold State.fetch
    unfold State.fetched at poison illegal inLoop effect
    by_cases hx : (s.core[c].inLoop && s.core[c].loopBuf) = true
    · simp only [hx, if_true] at *
      split
      · exact illegal
      · split
        · exact inLoop
        · exact effect
    · rw [Bool.not_eq_true] at hx
      simp only [hx, Bool.false_eq_true, if_false] at *
      split
      · rename_i m off hm
        simp only [hm] at *
        split
        · split
          · exact poison
          · split
            · exact illegal
            · split
              · exact inLoop
              · exact effect
        · exact bus
      · exact bus
  · exact stall

/-! ## The forms of scalar arithmetic -/

theorem alu_go (s : State) (c : Cl) (i : Instr) (rd rs1 rs2 : RegF) (f : Word → Word → Word) (h : s.canIssue c = true) :
    s.alu c i rd rs1 rs2 f = s.wroteG c rd (f (s.core[c].readG rs1).1 (s.core[c].readG rs2).1)
      ((s.core[c].readG rs1).2 || (s.core[c].readG rs2).2) := by
  unfold State.alu State.wroteG
  rw [issue_go s c _ _ _ _ h rfl (.inr rfl)]
  unfold State.finish State.onCore upd
  simp only [fetched_core]

theorem aluImm_go (s : State) (c : Cl) (i : Instr) (rd rs1 : RegF) (f : Word → Word) (h : s.canIssue c = true) :
    s.aluImm c i rd rs1 true f = s.wroteG c rd (f (s.core[c].readG rs1).1) (s.core[c].readG rs1).2 := by
  unfold State.aluImm State.wroteG
  rw [issue_go s c _ _ _ _ h rfl (.inr rfl)]
  unfold State.finish State.onCore upd
  simp only [fetched_core]

/-! ## The forms of the lane -/

/-- Reading a lane register depends on the core and the number of the next free value only. -/
theorem readV_congr (s t : State) (c : Cl) (r : RegF) (hc : t.core[c] = s.core[c]) (hf : t.free = s.free) :
    t.readV c r = s.readV c r := by
  unfold State.readV
  rw [hc, hf]

@[simp] theorem fetched_readV (s : State) (c : Cl) (r : RegF) : (s.fetched c).readV c r = s.readV c r :=
  readV_congr _ _ c r (by rw [fetched_core]) (fetched_free s c)
@[simp] theorem fetched_fresh_readV (s : State) (c : Cl) (r : RegF) : (s.fetched c).fresh.readV c r = s.fresh.readV c r :=
  readV_congr _ _ c r (show (s.fetched c).core[c] = s.core[c] by rw [fetched_core])
    (show (s.fetched c).free + 1 = s.free + 1 by rw [fetched_free])
@[simp] theorem fetched_fresh2_readV (s : State) (c : Cl) (r : RegF) :
    (s.fetched c).fresh.fresh.readV c r = s.fresh.fresh.readV c r :=
  readV_congr _ _ c r (show (s.fetched c).core[c] = s.core[c] by rw [fetched_core])
    (show (s.fetched c).free + 1 + 1 = s.free + 1 + 1 by rw [fetched_free])

theorem fresh_used (s : State) : s.fresh = s.used 1 := rfl
theorem used_used (s : State) (m n : Nat) : (s.used m).used n = s.used (m + n) := by
  unfold State.used
  rw [Nat.add_assoc]

/-- A lane result is the same whatever free values were used up on the way. -/
theorem laneTo_used (s : State) (c : Cl) (vd : RegF) (v : Native) (tag : Bool) (lat n : Nat) :
    ((s.fetched c).used n).laneTo c vd v tag lat = (s.wroteV c vd v tag lat).used n := rfl

theorem lane1_go (s : State) (c : Cl) (i : Instr) (vd va : RegF) (lat : Nat) (f : Native → Native) (h : s.canIssue c = true)
    (hd : vok vd = true) (ha : vok va = true) :
    s.lane1 c i vd va lat f = (s.wroteV c vd (f (s.readV c va).1) (s.readV c va).2 lat).used 1 := by
  unfold State.lane1
  rw [issue_go s c _ _ _ _ h (by rw [hd, ha]; rfl) (.inr rfl), fetched_readV]
  simp only [fresh_used]
  exact laneTo_used s c vd _ _ lat 1

theorem lane2_go (s : State) (c : Cl) (i : Instr) (vd va vb : RegF) (lat : Nat) (f : Native → Native → Native)
    (h : s.canIssue c = true) (hd : vok vd = true) (ha : vok va = true) (hb : vok vb = true) :
    s.lane2 c i vd va vb lat f =
      (s.wroteV c vd (f (s.readV c va).1 (s.fresh.readV c vb).1) ((s.readV c va).2 || (s.fresh.readV c vb).2) lat).used 2 := by
  unfold State.lane2
  rw [issue_go s c _ _ _ _ h (by rw [hd, ha, hb]; rfl) (.inr rfl), fetched_readV, fetched_fresh_readV]
  simp only [fresh_used, used_used]
  exact laneTo_used s c vd _ _ lat 2

theorem lane3_go (s : State) (c : Cl) (i : Instr) (vd va vb : RegF) (lat : Nat) (f : Native → Native → Native → Native)
    (h : s.canIssue c = true) (hd : vok vd = true) (ha : vok va = true) (hb : vok vb = true) :
    s.lane3 c i vd va vb lat f =
      (s.wroteV c vd (f (s.fresh.fresh.readV c vd).1 (s.readV c va).1 (s.fresh.readV c vb).1)
        ((s.readV c va).2 || (s.fresh.readV c vb).2 || (s.fresh.fresh.readV c vd).2) lat).used 3 := by
  unfold State.lane3
  rw [issue_go s c _ _ _ _ h (by rw [hd, ha, hb]; rfl) (.inr rfl), fetched_readV, fetched_fresh_readV, fetched_fresh2_readV]
  simp only [fresh_used, used_used]
  exact laneTo_used s c vd _ _ lat 3

end Sys2Proof.Machine
end

