-- ==== Sys2Proof/Tests/Slice0.lean ====
section
/-!
SUPPORT. Tests: worked examples of the spec, ill-formed commands, and for the statements witnesses that their hypotheses can be met
together, at the boundaries of their clauses. Each is one small evaluation.
-/
namespace Sys2Proof.Tests
open Sys2Proof.Machine

/- One test at a time: each waits for the kernel, and a waiting test holds a thread. -/
set_option Elab.async false

/-! ## Helpers -/

/-- A cluster out of reset and in RUN at the start of its ITCM, with its scalar registers, tags and the rest as `f` leaves them. -/
def run (c : Cl) (f : Core → Core := id) : State :=
  (State.reset.setPower (rqCl c) .run).onCore c (fun k => f { k with inReset := false })

/-- A scalar register set. -/
def g (r : Nat) (w : Word) (k : Core) : Core := { k with g := updN k.g r (fun _ => w) }

/-- A scalar register tagged. -/
def tagG (r : Nat) (k : Core) : Core := { k with gTag := putBit k.gTag r true }

/-! ## Worked examples of the spec -/

/-- R52 and R4: the check values of CRC-16 and CRC-32C over the nine characters 1 to 9. -/
theorem test_crc16_check : crc16 [0x31, 0x32, 0x33, 0x34, 0x35, 0x36, 0x37, 0x38, 0x39] = 0x29B1 := by decide +kernel
theorem test_crc32c_check : crc32c [0x31, 0x32, 0x33, 0x34, 0x35, 0x36, 0x37, 0x38, 0x39] = 0xE3069283 := by decide +kernel


/-- Table 04-7: the word 0x0000_0010_0000_0000_0000_0000_0000_0021 at 0x1000_0040, and its three reads. -/
def eccWord : Native := 0x00000010000000000000000000000021
theorem test_ecc_check_bits : checkBits eccWord 4 = 0x084 ∧ checkBits eccWord 5 = 0x05E := by decide +kernel
theorem test_ecc_syndromes : decodeSyndrome 0x086 = .dataBit 37 ∧ decodeSyndrome 0x0DA = .address ∧
    decodeSyndrome 0x012 = .uncorrectable ∧ decodeSyndrome 0x1FF = .poisoned := by decide +kernel

/-- 06, the worked example of JUDGE: 4.2150 V against 4.2000 V, ENERGIZED: the verdict 0x9001. -/
def judgeBody : Native := place 128 0 (421500 : BitVec 20) ||| place 128 20 (100000 : BitVec 24) ||| place 128 44 (504 : BitVec 12) |||
  place 128 56 (1 : BitVec 3) ||| place 128 59 (1 : BitVec 1)
def judgeRecord : Native := judgeBody ||| place 128 112 (crc16Word judgeBody)
def judgeLimits : Native := place 128 0 (420000 : BitVec 20) ||| place 128 20 (250000 : BitVec 20) ||| place 128 40 (150000 : BitVec 24) |||
  place 128 64 (-150000 : BitVec 24) ||| place 128 88 (720 : BitVec 12) ||| place 128 100 (160 : BitVec 12) ||| place 128 116 (1 : BitVec 1)
theorem test_judge_example : verdictCode judgeRecord judgeLimits = 0x9001 := by decide +kernel

set_option maxRecDepth 20000 in
/-- R201: the zero clamp table and its CRC-32C at reset. -/
theorem test_zero_clamp_crc : crc32cWords (List.replicate 16 0) = zeroClampCrc := by decide +kernel

/-! ## Ill-formed commands -/

theorem test_wf_line : (Instr.askShare 0 0x3FFFFF 0).wellFormed = false ∧ (Instr.ackDone 0 0x420000).wellFormed = false ∧
    (Instr.askShare 0 0x400000 0).wellFormed = true ∧ (Instr.ackDone 0 0x41FFFF).wellFormed = true := by decide
theorem test_wf_payload : (Instr.journal ⟨0, 0, false, 0⟩ (List.replicate 65 0)).wellFormed = false ∧
    (Instr.syncData ⟨0, 0, false, 0⟩ 0 (List.replicate 65 0)).wellFormed = false ∧
    (Instr.delta ⟨0, 0, false, 0⟩ 32767 0 [0, 0]).wellFormed = false ∧
    (Instr.delta ⟨0, 0, false, 0⟩ 32767 0 [0]).wellFormed = true := by decide +kernel
theorem test_wf_words : (Instr.lhi 0 1 1 0).wellFormed = false ∧ (Instr.loop 0 1 16 0).wellFormed = false ∧
    (Instr.lmov 0 16 0).wellFormed = false ∧ (Instr.land 0 0 0 16).wellFormed = false ∧ (Instr.lld 0 16 0 0).wellFormed = false ∧
    (Instr.lcrc 0 0 16).wellFormed = false ∧ (Instr.judge 0 0 0 16).wellFormed = false ∧
    (Instr.lext 0 0 0 0 0 false 1).wellFormed = false ∧ (Instr.lext 0 0 15 0 0 false 0).wellFormed = true := by decide
/-- What the option phase samples, and a first byte that names a transfer of the window. -/
def reading (straps : List (List (BitVec 4))) (held : Bool) (fuses : Option Fuses) : OptionReading :=
  ⟨fuses, straps, List.replicate 8 0, some .blank, some .blank, true, held⟩
theorem test_wf_frames : (Instr.optionPhaseEnd (reading [] false none)).wellFormed = false ∧
    (Instr.optionPhaseEnd (reading [List.replicate 16 0] false none)).wellFormed = true ∧
    (Instr.resetFrame [0x0B]).wellFormed = false ∧ (Instr.resetFrame [0x99]).wellFormed = true ∧
    (Instr.evtPush (.entries [])).wellFormed = false := by decide

/-! ## Witnesses: scalar and lane instructions -/

theorem witness_EmptyQueuePassesOneTick : State.reset.pending = [] := rfl

/-- A shift amount on either side of 32. -/
theorem witness_AluResults : (run 0 (g 2 31)).canIssue 0 = true ∧ (((run 0 (g 2 31)).core[(0 : Cl)]).readG 2).1.toNat < 32 ∧
    (run stw (g 2 32)).canIssue stw = true ∧ 32 ≤ (((run stw (g 2 32)).core[stw]).readG 2).1.toNat := by decide +kernel

theorem witness_MduResults : (run 3).canIssue 3 = true := by decide +kernel

theorem witness_LaneResults : (run 0).canIssue 0 = true ∧ vok 15 = true ∧
    (120 : BitVec 7).toNat + (7 : BitVec 5).toNat < 128 ∧ 128 ≤ (120 : BitVec 7).toNat + (8 : BitVec 5).toNat := by decide +kernel

/-- A Voice with v1 tagged. -/
def tagV : State := run 0 (fun k => { k with vTag := 2 })
theorem witness_JudgeResults : tagV.canIssue 0 = true ∧ vok 1 = true ∧ (tagV.readV 0 1).2 = true ∧ (tagV.readV 0 2).2 = false ∧
    (tagV.fresh.readV 0 2).2 = false := by decide +kernel

/-! ## Witnesses: control flow -/

/-- In a loop over words 4 to 7 of the ITCM, at its last word, with `n` iterations left. -/
def looping (n : Word) (f : Core → Core := id) : State :=
  run 0 (fun k => f { k with inLoop := true, loopStart := 4, loopEnd := 7, loopCount := n, pc := 0x0700001C })

theorem witness_BranchResults : (run 0).canIssue 0 = true ∧ (((run 0).core[(0 : Cl)]).readG 1).2 = false ∧
    (run 0).core[(0 : Cl)].inLoop = false ∧ (looping 1).canIssue 0 = true ∧
    inBody 0 (looping 1).core[(0 : Cl)] ((looping 1).core[(0 : Cl)].pc + (((1 : BitVec 16).signExtend 32) <<< 2)) = false := by
  decide +kernel

/-- LOOP in the last word of a 16-byte group, with a body of 16 instructions and a count from the word or from g1. -/
theorem witness_CallAndLoopResults :
    let s := run 0 (fun k => g 1 3 { k with pc := 0x0700000C })
    s.canIssue 0 = true ∧ s.core[(0 : Cl)].inLoop = false ∧ (s.core[(0 : Cl)].readG 1).2 = false ∧
      itcmIndex 0 s.core[(0 : Cl)].pc = some 3 ∧ s.core[(0 : Cl)].pc.toNat % 16 = 12 ∧ (15 : BitVec 5).toNat < 16 ∧
      (s.core[(0 : Cl)].readG 1).1 ≠ 0 := by decide +kernel
theorem witness_LoopNext : (looping 0).core[(0 : Cl)].inLoop = true ∧
    itcmIndex 0 (looping 0).core[(0 : Cl)].pc = some (looping 0).core[(0 : Cl)].loopEnd ∧
    (looping 0).core[(0 : Cl)].loopCount = 0 ∧ (looping 2).core[(0 : Cl)].loopCount ≠ 0 := by decide +kernel

/-! ## Witnesses: loads and stores -/

/-- g1 at byte `a`, offset 0. -/
def at' (c : Cl) (a : Word) (f : Core → Core := id) : State := run c (fun k => f (g 1 a k))

/-- The last 16 bytes of the DTCM, of a Score buffer and of Verdict RAM: every width that the memory takes. -/
theorem witness_LoadResults : let s := at' 0 0x0707FFF0
    s.canIssue 0 = true ∧ (s.core[(0 : Cl)].readG 1).2 = false ∧ readable 0 (.dtcm 0) = true ∧
      regionOf 0 0x0707FFF0 = .mem (.dtcm 0) 0x3FFF0 ∧
      (∀ sz ∈ [Size.b1, .b2, .b4, .b16], accepts (.dtcm 0) 0x3FFF0 sz = true ∧ s.asleep (.dtcm 0) 0x3FFF0 (sizeBytes sz) = [] ∧
        s.heldLoad 0 (.dtcm 0) 0x3FFF0 (sizeBytes sz) = .nothing) := by decide +kernel
theorem witness_LoadResults_score : let s := at' 0 0x203FFFF0
    s.canIssue 0 = true ∧ readable 0 (.score 1) = true ∧ regionOf 0 0x203FFFF0 = .mem (.score 1) 0x1FFFF0 ∧
      (∀ sz ∈ [Size.b4, .b16], accepts (.score 1) 0x1FFFF0 sz = true ∧ s.asleep (.score 1) 0x1FFFF0 (sizeBytes sz) = [] ∧
        s.heldLoad 0 (.score 1) 0x1FFFF0 (sizeBytes sz) = .nothing) := by decide +kernel

/-- Two neighbouring lines of Chord held in E, with 5 in the first word of the first, and g3 = `old`. -/
def eLine : L1Line := ⟨lineOf 0x10000000, 0, .e, lineCells 5 0, false, none, none⟩
def eNext : L1Line := ⟨lineOf 0x10000040, 0, .e, lineCells 0 0, false, none, none⟩
def holds (old : Word) (a : Word := 0x10000000) : State :=
  ((at' 0 a (g 3 old)).onChord (fun h => { h with l1d := upd h.l1d 0 (fun _ => [eLine, eNext]) })).setPower (rqSlice 0) .run
/-- The hypotheses of a load at `a`, and of an atomic on the first word with `old` in RD. -/
def loadHits (a : Word) : Bool :=
  let s := (holds 5 a).setPower (rqSlice 1) .run
  let off := a.toNat - 0x10000000
  s.canIssue 0 && !(s.core[(0 : Cl)].readG 1).2 && !s.agentDead 0 && decide (regionOf 0 a.toNat = .mem .chord off) &&
    accepts .chord off .b4 && (s.asleep .chord off 4).isEmpty && decide (s.heldLoad 0 .chord off 4 = .nothing) &&
    [a.toNat, a.toNat + 3].all (fun b => (s.l1 0 (lineOf b)).any (fun x => x.st.loadHit))
def atomicHits (old : Word) : Bool :=
  let s := holds old
  s.canIssue 0 && !(s.core[(0 : Cl)].readG 1).2 && !(s.core[(0 : Cl)].readG 3).2 && !s.agentDead 0 && (s.asleep .chord 0 4).isEmpty &&
    s.core[(0 : Cl)].egress.isEmpty && decide (s.l1 0 (lineOf 0x10000000) = some eLine) && !eLine.poison.getLsbD 0 &&
    (s.core[(0 : Cl)].readG 3).1 == old && (field eLine.data 0 32 : Word) == 5
/-- A load that stays in its line, and one that crosses into the next; ATCAS with the old value and with another. -/
theorem witness_ChordHits : loadHits 0x10000000 = true ∧ loadHits 0x1000003E = true ∧ atomicHits 5 = true ∧
    atomicHits 6 = true := by decide +kernel

/-- A Voice's store into its DTCM, with the hold empty and full; the Steward's into Verdict RAM. -/
def fullHold : State := at' 0 0x07040000 (fun k => { k with egress := List.replicate 4 ⟨.store 0x07040000 .b4 0 false, false, false⟩ })
theorem witness_StoreResults : (at' 0 0x07040000).canIssue 0 = true ∧ writable 0 (.dtcm 0) = true ∧
    regionOf 0 0x07040000 = .mem (.dtcm 0) 0 ∧ (∀ sz ∈ [Size.b1, .b2, .b4, .b16], accepts (.dtcm 0) 0 sz = true) ∧
    ((at' 0 0x07040000).core[(0 : Cl)].readG 1).2 = false ∧ 4 ≤ fullHold.core[(0 : Cl)].egress.length := by decide +kernel
theorem witness_StoreResults_steward : let s := at' stw 0x0703FFFC
    let t := at' stw 0x2407FFFC
    s.canIssue stw = true ∧ s.memc.injGo = false ∧ writable stw (.dtcm stw) = true ∧
      regionOf stw 0x0703FFFC = .mem (.dtcm stw) 0x1FFFC ∧ 0x1FFFC + 4 ≤ (MemName.dtcm stw).bytes ∧
      s.asleep (.dtcm stw) 0x1FFFC 4 = [] ∧ (∀ l ∈ touched (.dtcm stw) 0x1FFFC 4, (s.cell l).syn = 0) ∧
      t.canIssue stw = true ∧ regionOf stw 0x2407FFFC = .mem .verdict 0x7FFFC ∧ accepts .verdict 0x7FFFC .b4 = true ∧
      t.asleep .verdict 0x7FFFC 4 = [] ∧ (∀ l ∈ touched .verdict 0x7FFFC 4, (t.cell l).syn = 0) := by decide +kernel

theorem witness_LaneAccessesAreAligned : (at' 0 0x07040008).canIssue 0 = true ∧
    ((at' 0 0x07040008).core[(0 : Cl)].readG 1).1.toNat % 16 ≠ 0 := by decide +kernel

/-- Address 0 of a Voice is the Boot ROM it may not read; 0x0F00_0000 is a hole; a Score slot takes no store and no odd word. -/
theorem witness_ForbiddenAccesses : (at' 0 0).canIssue 0 = true ∧ regionOf 0 0 = .mem .rom 0 ∧ readable 0 .rom = false ∧
    regionOf 0 0x0F000000 = .nothing ∧ writable 0 (.score 0) = false ∧ accepts (.score 0) 2 .b4 = false := by decide +kernel

/-! ## Witnesses: exceptions and system registers -/

/-- A core with a stack of two frames in its DTCM and its vector table at the start of its ITCM. -/
def stacked (f : Core → Core := id) : State := run 0 (fun k => f (g 2 0x07040040 { k with vtable := 0x38000 }))
theorem witness_ExceptionEntry : let s := stacked
    let k := s.core[(0 : Cl)]
    k.curLvl ≠ 17 ∧ s.memc.injGo = false ∧ s.osti.save = none ∧ s.frameBusy 0 = false ∧ (k.readG 2).2 = false ∧
      stackOff 0 ((k.readG 2).1 - 32) = some 0x20 ∧ k.frameTag = false ∧ vectorOff 0 k (64 + 15) = some 316 ∧
      (s.cell ⟨.itcm 0, 316 / 16⟩).syn = 0 ∧ (s.cell ⟨.itcm 0, 316 / 16 + 1⟩).syn = 0 := by decide +kernel
/-- A held store to the frame below the stack pointer. -/
def busyFrame (f : Core → Core := id) : State :=
  stacked (fun k => f { k with egress := [⟨.store 0x07040020 .b4 0 false, false, false⟩] })
theorem witness_DoubleFault : busyFrame.frameBusy 0 = true ∧ (run 0).frameBusy 0 = false ∧ (run 0 (fun k => { k with curLvl := 17 })).core[(0 : Cl)].curLvl = 17 ∧
    stackOff 0 (((run 0).core[(0 : Cl)].readG 2).1 - 32) = none ∧
    (run 0 (fun k => { k with doubleFault := true })).core[(0 : Cl)].doubleFault = true := by decide +kernel

theorem witness_SystemRegisterAccess : (run 0).canIssue 0 = true ∧ sysReg ((0x035 : BitVec 16).toNat % 4096) = true ∧
    sysReg ((0x036 : BitVec 16).toNat % 4096) = false ∧ ((run 0).core[(0 : Cl)].readG 1).2 = false ∧
    ((run 0 (tagG 1)).core[(0 : Cl)].readG 1).2 = true ∧ (run 0 (tagG 1)).canIssue 0 = true := by decide +kernel

theorem witness_TrapAndWaitResults : (run 0).canIssue 0 = true ∧ (run 0).core[(0 : Cl)].cueReady = 0 ∧
    (run 0).core[(0 : Cl)].acceptable = none ∧ (run 0).core[(0 : Cl)].egress = [] ∧ busyFrame.core[(0 : Cl)].egress ≠ [] ∧ busyFrame.canIssue 0 = true ∧
    stacked.canIssue 0 = true ∧ stacked.frameHeld 0 0x40 = false ∧ (run 0).core[(0 : Cl)].inLoop = false ∧ stackOff 0 (stacked.core[(0 : Cl)].readG 2).1 = some 0x40 ∧
    (stacked.cell ⟨.dtcm 0, 4⟩).syn = 0 ∧ (stacked.cell ⟨.dtcm 0, 5⟩).syn = 0 ∧
    stacked.core[(0 : Cl)].chainTo (stacked.cell ⟨.dtcm 0, 4⟩).data = none := by decide +kernel

theorem witness_IllegalInstructions : (looping 1).canIssue 0 = true ∧
    inBody 0 (looping 1).core[(0 : Cl)] (branchTarget (looping 1).core[(0 : Cl)].pc (0xFFFD : BitVec 16)) = true ∧ vok 16 = false ∧
    (run stw).canIssue stw = true := by decide +kernel

/-! ## Witnesses: the egress hold, command words, interrupts and Cue -/

theorem witness_CpushAndFdoneResults : (run 1).canIssue 1 = true ∧ ((run 1).readV 1 2).2 = false ∧ (tagV.readV 0 1).2 = true ∧
    (run 0).ownerOf 63 = 0 ∧ (run 1).ownerOf 63 ≠ 1 ∧ (run 1).core[(1 : Cl)].egress = [] ∧
    (run 1).frameBusy 1 = false ∧ busyFrame.core[(0 : Cl)].egress.any Egress.beforeFdone = true ∧ busyFrame.canIssue 0 = true := by
  decide +kernel

/-- A Voice with one transaction in its hold. -/
def held (op : EgressOp) (released error : Bool) : State := run 0 (fun k => { k with egress := [⟨op, released, error⟩] })
theorem witness_EgressResults : let s := held (.store 0x2407FFFC .b4 7 false) false false
    s.core[(0 : Cl)].inReset = false ∧ s.isolated 0 = false ∧ s.powerOf (rqVoice 0) = .run ∧ s.storeWaits 0 = false ∧
      regionOf 0 0x2407FFFC = .mem .verdict 0x7FFFC ∧ writable 0 .verdict = true ∧ s.asleep .verdict 0x7FFFC 4 = [] ∧
      (∀ l ∈ touched .verdict 0x7FFFC 4, (s.cell l).syn = 0) ∧
      (run 0 (fun k => { k with late := [] })).runnable 0 = true ∧ (run 0).frameBusy 0 = false := by decide +kernel
/-- A held load of GOV's release counter, and a released store whose acknowledgement comes. -/
theorem witness_EgressResults_read : let s := held (.read 0x30050060 .b4 (.load .lw 5)) false false
    regionOf 0 0x30050060 = .periph blkGov 0x60 ∧ (s.regLoad (initiatorOf 0) blkGov 0x60 .b4).2.2 = false ∧
      s.core[(0 : Cl)].egress.tail = [] ∧ (held (.store 0x07040000 .b4 7 false) true true).storeWaits 0 = false := by decide +kernel

/-- Range 0, all of trunk 0's concentrator 0, owned by VOICE_0, and a DE-ENERGIZE of its last channel. -/
def mapped : State := (run 0).onUnis (fun u => { u with chmap := u.chmap.set 0 (place 128 32 (255 : Word) ||| oneHot 128 64) })
def deWord : Native := place 128 0 (255 : Byte) ||| place 128 13 (1 : BitVec 3)
theorem witness_CommandWordIntake : formatOk deWord = true ∧ mapped.originOk 0 0 deWord = true ∧ mapped.occupied 0 < 4096 ∧
    getN mapped.gov.pushed 0 0 < 2048 ∧ formatOk (oneHot 128 96) = false := by decide +kernel

/-- Source 14 pending and enabled at level 16. -/
def irq : State := stacked (fun k => { k with
  ie := true, icuEn := oneHot 64 14, icuPend := oneHot 64 14, icuLvl := Vector.replicate 8 0xFFFFFFFF })
theorem witness_InterruptResults : let k := irq.core[(0 : Cl)]
    irq.runnable 0 = true ∧ k.draining = false ∧ irq.frameBusy 0 = false ∧ irq.memc.injGo = false ∧ irq.osti.save = none ∧
      busyFrame.frameBusy 0 = true ∧ (run 0 (fun k => { k with draining := true })).core[(0 : Cl)].draining = true ∧
      k.acceptable = some 14 ∧ (k.readG 2).2 = false ∧ stackOff 0 ((k.readG 2).1 - 32) = some 0x20 ∧
      vectorOff 0 k 14 = some 56 ∧ (irq.cell ⟨.itcm 0, 3⟩).syn = 0 ∧ (irq.cell ⟨.itcm 0, 4⟩).syn = 0 := by decide +kernel

/-- A waiting core with slot 31 ready, and one that runs with slots 3 and 31 ready at equal priority. -/
def waiter : State := (run 0 (fun k => { k with waiting := true, cueReady := 0x80000000 })).setPower (rqVoice 0) .idle
def ready2 : State := run 0 (fun k => { k with cueReady := 0x80000008 })
theorem witness_CueAndWakeResults : waiter.core[(0 : Cl)].waiting = true ∧ waiter.powerOf (rqCl 0) = .idle ∧
    waiter.isolated 0 = false ∧ waiter.core[(0 : Cl)].cueReady ≠ 0 ∧ (run 0).runnable 0 = true ∧
    (run 0).core[(0 : Cl)].cueReady = 0 ∧ ready2.core[(0 : Cl)].cueReady.getLsbD 3 = true ∧
    ∀ i ∈ List.range 32, ready2.core[(0 : Cl)].cueReady.getLsbD i = true → 3 ≤ i := by decide +kernel

/-! ## Witnesses: register space -/

theorem witness_RegisterSpaceRules : periphOf 0x30050000 = some (blkGov, 0) ∧
    ¬ ((Size.b2 = .b4 ∧ 0 % 4 = 0) ∨ (Size.b2 = .b16 ∧ 0 % 16 = 0)) ∧ (at' 0 0x30050002).canIssue 0 = true ∧
    regionOf 0 0x30050002 = .periph blkGov 2 ∧ acceptsReg 0xFFFC .b4 = true ∧
    (at' 0 0x30050000).core[(0 : Cl)].egress = [] ∧ State.reset.snaps = [] ∧ lanesAt 0xFFFC .b4 ≠ [] ∧
    (∀ x ∈ lanesAt 0xFFFC .b4, State.reset.readReg blkGov x = none) ∧ State.reset.mayRead .steward = true ∧
    State.reset.mayWrite .steward blkGov 0xFFFC .b4 = true := by decide +kernel

theorem witness_CounterResults : periphOf 0x30050060 = some (blkGov, 0x60) ∧ counterAt blkGov 0x60 = some 0 ∧
    periphOf 0x30050050 = some (blkGov, 0x50) ∧ isWide blkGov 0x50 = true ∧ periphOf 0x30050054 = some (blkGov, 0x54) ∧
    State.reset.populated 0 = true := by decide +kernel

/-- The released-command counter at all ones, and no snapshot held. -/
theorem witness_SnapshotReads : isWide blkGov 0x50 = true ∧ State.reset.snaps = [] ∧
    (State.reset.onGov (fun x => { x with relCmd := BitVec.allOnes 64 })).wideGet blkGov 0x50 = BitVec.allOnes 64 := by
  decide +kernel

def syncing (h : Bool) : State := State.reset.onHdr (blkTrk 0) (fun x => { x with sync := true, syncHeld := h })
theorem witness_TableSyncResults : (∀ c : Cl, (syncing false).chord.l1d[c] = []) ∧ (syncing false).chord.net = [] ∧ State.reset.populated 0 = true ∧ State.reset.hdr[blkTrk 0].sync = false ∧
    (syncing false).hdr[blkTrk 0].sync = true ∧ (syncing false).hdr[blkTrk 0].syncHeld = false ∧
    (syncing true).hdr[blkTrk 0].syncHeld = true := by decide +kernel

/-! ## Witnesses: frames, clocks, power, Ostinato and Unison -/

/-- A comparator without fault. -/
def sound : Comparator := ⟨0, 0, none⟩
/-- In SUMMER with a frame open since 1,000 and the next boundary at 241,000. -/
def framed (f : Metr → Metr := id) : State :=
  ((run 0).onCres (fun c => { c with season := .summer })).onMetr (fun m => f { m with openAt := some 1000, nextAt := 241000 })
/-- The frame judged at present: frame 7 with range 0 unfinished. -/
def judging : State := framed (fun m => { m with judged := some ⟨7, 0, 241000, 0, 1⟩ })
theorem witness_FrameScheduleResults : framed.boundaryAt = some 241000 ∧ framed.formed = false ∧ framed.unis.rejoin = false ∧
    framed.mirl.soloPending = false ∧ framed.metr.openAt ≠ none ∧ framed.memc.injGo = false ∧ judging.metr.judged.isSome = true ∧
    State.reset.metr.openAt = none ∧ State.reset.boundaryAt = none ∧ (∀ v : Vc, framed.probeComp v = 0) ∧
    ((framed.onUnis (fun u => { u with alive := 8 })).seeComparators 3 ⟨0, 0, some 1⟩ sound).probeComp 3 = 1 ∧
    (∀ c : Cl, framed.chord.l1d[c] = []) ∧ framed.chord.net = [] ∧ framed.metr.judged = none ∧
    (241000 : Time) - us judging.metr.warnLead.toNat < 241000 ∧
    framed.metr.lineTime ≤ framed.nextHeartbeat := by decide +kernel

/-- A count of 240 windows at each edge of 2 %: 235 and 245 are out, 236 and 244 in. -/
theorem witness_ClockAndWatchdogResults : State.reset.pllRuns .line = true ∧
    (State.reset.onRst (fun r => { r with seq := none })).pllRuns .line = false ∧ State.reset.rcOnly = false ∧ 235 * 100 < 240 * 98 ∧ 240 * 102 < 245 * 100 ∧
    (240 * 98 ≤ 236 * 100 ∧ 244 * 100 ≤ 240 * 102) ∧ (run stw).stwCounts = true ∧ State.reset.stwCounts = false ∧
    (run 0).voiceCounts 0 = true ∧ (run 0).unis.tacet.getLsbD 0 = false ∧ State.reset.voiceCounts 0 = false ∧
    State.reset.gov.state = .disarmed ∧ (∀ t : TrkId, State.reset.trk[t].link = .down) ∧
    (State.reset.onTrk 15 (fun k => { k with link := .train })).trk[(15 : TrkId)].link ≠ .down := by decide +kernel

/-- A live Voice idling in WAIT, a block that holds its grant in RETAIN and one in OFF, and the seasons. -/
def idler : State := ((run 0 (fun k => { k with waiting := true })).onUnis (fun u => { u with alive := 1 })).setPower (rqVoice 0) .idle
def granted (p : PowerState) : State := (State.reset.onCres (fun c => { c with grants := [rqVoice 1] })).setPower (rqVoice 1) p
def inSeason (x : Season) : State := State.reset.onCres (fun c => { c with season := x })
theorem witness_PowerAndSeasonResults : idler.unis.alive.getLsbD 0 = true ∧ idler.idling 0 = true ∧
    idler.core[(0 : Cl)].cueReady = 0 ∧ idler.core[(0 : Cl)].acceptable = none ∧ idler.unfinished = [] ∧
    (granted .retain).holds (rqVoice 1) = true ∧ (granted .retain).powerOf (rqVoice 1) = .retain ∧
    (granted .off).holds (rqVoice 1) = true ∧ (granted .off).powerOf (rqVoice 1) = .off ∧
    rqBist ∉ State.reset.cres.noticed ∧ (granted .off).memc.injGo = false ∧ idler.metr.judged = none ∧
    (inSeason .spring).seasonFree = true ∧ (inSeason .autumn).seasonFree = true ∧ (∀ t : TrkId, (inSeason .spring).trk[t].enable = false) ∧
    (inSeason .spring).cres.season = .spring ∧ (inSeason .autumn).cres.season = .autumn ∧
    State.reset.usedPu ≤ State.reset.openBudget ∧
    reserved rqMirl = true := by decide +kernel

/-- Ostinato enabled with its grant, at the last region; with the region saved; and with the grant to be given back. -/
def osti (r : BitVec 14) (f : Osti → Osti := id) : State :=
  (State.reset.onOsti (fun o => f { o with enable := true, region := r })).onCres (fun c => { c with grants := [rqOsti] })
def saved (r : BitVec 14) : State := osti r (fun o => { o with save := some (Vector.replicate 64 ⟨0, 0⟩) })
theorem witness_OstinatoKeepsMemory : (osti 0).osti.enable = true ∧ (osti 0).osti.save = none ∧
    ((osti 0).setPower rqStw .run).regionSleeps 0 = false ∧ (osti 0).holds rqOsti = true ∧ rqOsti ∉ (osti 0).cres.noticed ∧
    (saved 16079).osti.save.isSome = true ∧ (saved 16079).memc.injGo = false ∧ (osti 16079).osti.region.toNat + 1 = 16080 ∧
    rqOsti ∈ ((saved 5).onCres (fun c => { c with noticed := [rqOsti] })).cres.noticed ∧ State.reset.holds rqOsti = false ∧
    (State.reset.onOsti (fun o => { o with enable := false })).osti.enable = false ∧
    regionPower 256 = some (rqVoice 0) ∧ ((osti 256).setPower (rqVoice 0) .retain).regionSleeps 256 = true ∧
    (osti 0).metr.judged = none := by decide +kernel

theorem witness_LogPopsReturnTheOldestEntry : State.reset.mayRead .steward = true ∧
    (State.reset.onRst (fun r => { r with lc := .deployed })).mayRead .jtag = false := by decide +kernel

/-- The codes of each kind that two comparators give over two equal bundles and two that differ. -/
def quietBundle : Bundle := ⟨0, 0, 0, 0, 0, 0, false, 0, 0, 0, 0, 0, 0, 0, false, 0, false, 0, 0, 0, 0, false, 0, 0, 0, 0, false⟩
def lastBundle : Bundle := { quietBundle with exception := true }
/-- The bits in which the two differ. -/
def apart : BitVec 1024 := bundleDiff ⟨quietBundle, lastBundle⟩
theorem witness_VoiceOutResults_codes : railCode sound (bundleDiff ⟨quietBundle, quietBundle⟩) = 1 ∧ railCode sound apart = 2 ∧
    railCode ⟨0, 0, some 3⟩ apart = 3 ∧ railCode ⟨apart, 0, none⟩ apart = 1 ∧
    railCode ⟨0, apart, none⟩ apart = 1 ∧ (lowestSegment (seenDiff sound apart)).isSome = true := by decide +kernel
/-- The probe finds a comparator stuck at agreement at any bit, a blind one at its own bit only (R112). -/
theorem test_probe : probeDeviates sound 5 = false ∧ probeDeviates ⟨0, 0, some 1⟩ 5 = true ∧
    probeDeviates ⟨0, oneHot 1024 7, none⟩ 7 = true ∧ probeDeviates ⟨0, oneHot 1024 7, none⟩ 8 = false := by decide +kernel
theorem witness_VoiceOutResults : (run 3).unis.tacet.getLsbD 3 = false ∧
    ((run 3).onUnis (fun u => { u with outV := 3 })).unis.outV = 3 ∧
    ((run 3).onUnis (fun u => { u with tacet := 8 })).unis.tacet.getLsbD 3 = true := by decide +kernel

/-- A plan waits for the live mask 1: a valid one, an invalid one, and a REJOIN of VOICE_1 that may and one that may not return. -/
def planned (ok : Bool) (alive : BitVec 4) : State := State.reset.onUnis (fun u => { u with
  planPending := true, alive := alive, plan := u.plan.set 1 ⟨0, 1, 0, ok⟩ })
theorem witness_PlanAndRejoinResults : (planned true 1).unis.planPending = true ∧ (planned true 1).unis.alive ≠ 0 ∧
    ((planned true 1).planOf 1).valid = true ∧ ((planned false 1).planOf 1).valid = false ∧ (planned true 0).unis.alive = 0 ∧
    State.reset.unis.planPending = false ∧
    ((State.reset.onUnis (fun u => { u with notLive := 1 })).unis.notLive.getLsbD 0 = true) ∧
    State.reset.unis.notLive.getLsbD 0 = false ∧ State.reset.mayRejoin 0 = false ∧
    (State.reset.onUnis (fun u => { u with tacet := 1, outReset := 1, outProbed := 1, returnReq := 1 })).mayRejoin 0 = true := by decide +kernel

def masked (n : BitVec 3) : State := (run stw).onUnis (fun u => { u with stwMasked := n, stwMaskNum := Vector.replicate 3 2 })
def away (t : Option Time) : State := (run stw).onUnis (fun u => { u with stwAway := t })
theorem witness_StewardVotingResults : (masked 0).core[stw].inReset = false ∧ (masked 0).unis.stwMasked = 0 ∧
    (masked 4).rst.optionHold = false ∧ (masked 4).metr.judged = none ∧
    (masked 4).unis.stwMasked ≠ 0 ∧ (masked 4).unis.stwDegraded = false ∧ (masked 4).rst.seq.isSome = true ∧
    ((masked 4).onRst (fun r => { r with seq := none })).rst.seq = none ∧
    ((masked 4).onRst (fun r => { r with seq := none })).reach 7 = none ∧ (away (some 5)).unis.stwAway = some 5 ∧
    (away (some 5)).core[stw].inReset = false ∧ (away (some 5)).chord.reclaiming.getLsbD 4 = false ∧
    (away none).unis.stwAway = none := by decide +kernel

/-! ## Witnesses: trunks -/

/-- Trunk 15 in SUMMER, as `f` leaves it. -/
def trunk (f : Trunk → Trunk) : State := (inSeason .summer).onTrk 15 f
def up (f : Trunk → Trunk := id) : State := trunk (fun k => f { k with enable := true, link := .up })
theorem witness_TrunkBringUpResults : (trunk id).populated 15 = true ∧ (trunk id).trk[(15 : TrkId)].enable = false ∧
    (trunk id).trk[(15 : TrkId)].link = .down ∧ ((trunk id).setPower (rqTrk 15) .run).powerOf (rqTrk 15) = .run ∧
    (trunk id).powerOf (rqTrk 15) ≠ .run ∧ up.looped 15 = false ∧ up.trk[(15 : TrkId)].relinkHeld = false ∧
    (up (fun k => { k with loopback := true })).looped 15 = true ∧ (up (fun k => { k with relink := true })).trk[(15 : TrkId)].relink = true ∧
    (trunk (fun k => { k with link := .discover })).trk[(15 : TrkId)].link = .discover ∧ up.trk[(15 : TrkId)].enable = true ∧
    (trunk (fun k => { k with link := .train })).trk[(15 : TrkId)].link = .train ∧
    (trunk (fun k => { k with link := .discover, discs := 3 })).trk[(15 : TrkId)].discs < 4 ∧
    4 ≤ (trunk (fun k => { k with link := .discover, discs := 4 })).trk[(15 : TrkId)].discs ∧
    crc16 [0x45, 32, 0] ≠ 0 ∧ up.gov.zone.getLsbD 15 = false ∧ (up.onGov (fun x => { x with zone := 0x8000 })).gov.zone.getLsbD 15 = true ∧
    (up (fun k => { k with relocking := true })).trk[(15 : TrkId)].relocking = true ∧ up.trk[(15 : TrkId)].relocking = false := by
  decide +kernel

/-- A burst header of concentrator 31: 64 records from slot 192, and one record too many. -/
def burstHdr (count : Byte) : BitVec 64 := place 64 0 (31 : BitVec 5) ||| place 64 8 count ||| place 64 40 (192 : Byte)
def bursting (f : Trunk → Trunk := id) : State := (up (fun k => f { k with burst := some ⟨burstHdr 64, 63, 0, false⟩ })).onMetr
  (fun m => { m with openAt := some 5 })
theorem witness_BurstResults : up.receiving 15 = true ∧
    (crc16 (bytesOf 8 (burstHdr 64)) = crc16 (bytesOf 8 (burstHdr 64)) ∧ (hdrCount (burstHdr 64)).toNat ≤ 64 ∧
      (hdrFirst (burstHdr 64)).toNat + (hdrCount (burstHdr 64)).toNat ≤ 256) ∧
    ¬ (hdrCount (burstHdr 65)).toNat ≤ 64 ∧ (trunk id).receiving 15 = false ∧
    bursting.trk[(15 : TrkId)].burst.isSome = true ∧ bursting.receiving 15 = true ∧
    bursting.metr.openAt.isSome = true ∧ bursting.trk[(15 : TrkId)].maxNak ≠ 0 ∧
    (getN bursting.trk[(15 : TrkId)].conc 31 .reset).naks = [] ∧ bursting.present 15 31 = false ∧
    crc16 [0x41, 31, 1, 1, 0] ≠ crc16 [0x41, 31, 1, 1, 1] := by decide +kernel

/-- A route table that marks concentrator 31 of trunk 15 present, and records of its slot 255. -/
def routed : State := ((bursting (fun k => { k with routeBase := BitVec.ofNat 23 (0x10000000 / 512) })).storeWord
  ⟨.chord, 31⟩ (oneHot 128 64) false)
def recBody (f : Native) : Native := place 128 104 (255 : Byte) ||| f
def rec255 (f : Native) : Native := recBody f ||| place 128 112 (crc16Word (recBody f))
theorem witness_RecordArrivalResults : routed.trk[(15 : TrkId)].burst = some ⟨burstHdr 64, 63, 0, false⟩ ∧
    63 < (hdrCount (burstHdr 64)).toNat ∧ recCrcOk (rec255 0) = true ∧ recCrcOk (recBody 0) = false ∧
    (routed.routeEntry 15 31).getLsbD 64 = true ∧ (recSlot (rec255 0)).toNat = (hdrFirst (burstHdr 64)).toNat + 63 ∧
    bursting.routeEntry 15 31 = 0 ∧ routed.metr.openAt.isSome = true ∧ hdrFrame (burstHdr 64) = routed.metr.frameNow ∧
    hdrFrame (burstHdr 64) ≠ (routed.onMetr (fun m => { m with frameNow := 1 })).metr.frameNow ∧
    routed.trk[(15 : TrkId)].written = [] ∧ routed.memc.injGo = false ∧
    sentinelCauses routed.trk[(15 : TrkId)] 0 (rec255 (oneHot 128 0)) ≠ 0 ∧
    sentinelCauses routed.trk[(15 : TrkId)] 0 (rec255 0) = 0 := by decide +kernel

/-- One word queued in each class, IDLE, a link set, and a window at its third and its fourth timeout. -/
def sending (cls : TxClass) : State := up (fun k => { k with txq := [⟨deWord, cls, none, none⟩] })
def window (n : Nat) : State := up (fun k => { k with
  conc := updN k.conc 31 (fun x => { x with win := [⟨deWord, .urgent, n, false, 0⟩] }), winB := [⟨deWord, .other, n, false, 0⟩] })
theorem witness_DownlinkResults : (sending .urgent).trk[(15 : TrkId)].txq ≠ [] ∧ (sending .other).trk[(15 : TrkId)].linkq = [] ∧
    cmdAll deWord = false ∧ (getN (sending .urgent).trk[(15 : TrkId)].conc 0 .reset).win.length < 64 ∧
    (∀ c ∈ List.range 32, (getN (sending .protective).trk[(15 : TrkId)].conc c .reset).win = []) ∧
    (sending .urgent).trk[(15 : TrkId)].winB = [] ∧ up.trk[(15 : TrkId)].txq = [] ∧
    (getN (window 2).trk[(15 : TrkId)].conc 31 .reset).win.length = 1 ∧ (window 2).trk[(15 : TrkId)].winB.length = 1 ∧
    (getN (window 3).trk[(15 : TrkId)].conc 30 .reset).win = [] := by decide +kernel

/-! ## Witnesses: Chord -/

def line0 : Line := 0x400000
/-- The last line of the window, whose home is slice 3. -/
def lineZ : Line := 0x41FFFF
/-- Slice 0 in RUN with line 0 tracked for `who` in both trackers, and `net` on its way. -/
def home (who : Option (Cl × Bool)) (f : Slice → Slice := id) (net : List CohMsg := []) : State :=
  ((State.reset.setPower (rqSlice 0) .run).onChord (fun h => { h with net := net })).onSlice 0 (fun h => f (match who with
    | some (a, x) => { h with tm := [⟨a, line0, 0, x, false, 0⟩], vd := [⟨line0, 0, oneHot 8 a.val, x, false, 0⟩] }
    | none => h))
/-- What the statement calls quiet at slice 0, and what both trackers say of line 0. -/
def quietHome (s : State) : Bool :=
  let h := s.chord.slice[(0 : SliceId)]
  lineOk line0 && h.flushed.isEmpty && h.switchTo.isNone && !h.quiesce && !h.flushing && h.reserved.isEmpty && h.early.isEmpty &&
    !s.chord.flush && s.powerOf (rqSlice 0) != .retain && h.tm.all (fun e => e.syn == 0) && h.vd.all (fun e => e.syn == 0)
def bothLook (s : State) (m : Byte) (x : Bool) : Bool :=
  let h := s.chord.slice[(0 : SliceId)]
  h.tmLook line0 == (m, x) && h.vdLook line0 == (m, x)
theorem witness_ChordRequestResults : lineOk 0x420000 = false ∧ homeOf line0 = 0 ∧ homeOf lineZ = 3 ∧
    quietHome (home none) = true ∧ quietHome (home (some (4, true))) = true ∧ bothLook (home none) 0 false = true ∧
    bothLook (home (some (1, false))) (oneHot 8 1) false = true ∧ bothLook (home (some (4, true))) (oneHot 8 4) true = true ∧
    (home none).chord.slice[(0 : SliceId)].txns = [] ∧ (home none).chord.slice[(0 : SliceId)].vd = [] ∧
    (∀ q : SliceId, ((home (some (4, true))).chord.slice[q].vd.map (fun e => e.line)).Nodup) ∧
    ((home none).setPower (rqSlice 0) .retain).powerOf (rqSlice 0) = .retain ∧ (home none).chord.wrapped.getLsbD 0 = false ∧
    (home none).ready (.ask .share (agentOf 0) line0 0) = true ∧ nonCaching 8 = true ∧ nonCaching 4 = false ∧
    (home none).outstanding 8 < askLimit 8 ∧ askLimit 8 ≤ (home none id [.ackDone 8 line0]).outstanding 8 := by decide +kernel

/-- A PUT, and a RETIRE_DIRTY of the owner, that await their CarryPut. -/
def txn (k : AskKind) (b : Agent) (w : BitVec 5) : Txn := ⟨k, b, line0, 0, true, w, none, none, 0, false⟩
def putting (who : Option (Cl × Bool)) (t : Txn) (b : Agent) : State :=
  home who (fun h => { h with txns := [t] }) [.carryPut b line0 0 0 15]
theorem witness_ChordPut : let p := putting none (txn .put 8 0) 8
    let r := putting (some (4, true)) (txn .retireDirty (agentOf 4) 0) (agentOf 4)
    quietHome p = true ∧ quietHome r = true ∧ p.ready (.carryPut 8 line0 0 0 15) = true ∧ bothLook p 0 false = true ∧
      r.ready (.carryPut (agentOf 4) line0 0 0 15) = true ∧ bothLook r (oneHot 8 4) true = true ∧ p.memc.injGo = false := by
  decide +kernel

/-- Two answers awaited, and one. -/
theorem witness_ChordAnswerResults : lineOk lineZ = true ∧ lineOk line0 = true ∧ (txn .own (agentOf 0) 0x18).awaiting.getLsbD 4 = true ∧
    (txn .own (agentOf 0) 0x18).awaiting &&& ~~~ oneHot 5 4 ≠ 0 ∧ (txn .own (agentOf 0) 0x10).awaiting &&& ~~~ oneHot 5 4 = 0 ∧
    (home none (fun h => { h with txns := [txn .own (agentOf 0) 0x10] })).chord.slice[(0 : SliceId)].txns.length = 1 ∧
    (home none).chord.slice[(0 : SliceId)].flushed = [] ∧ (home none).chord.flush = false ∧
    (home none).chord.slice[homeOf line0].txns = [] ∧ (home none).ready (.ackGone 4 line0 true) = true ∧
    (home none id [.ackKept 4 line0, .ackGone 4 line0 true]).ready (.ackGone 4 line0 true) = false ∧
    (home none id [.ask .retireDirty (agentOf 4) line0 0, .carryPut (agentOf 4) line0 0 0 15]).putAhead (agentOf 4) line0 = true ∧
    (home none).putAhead (agentOf 4) line0 = false ∧ (home none).memc.injGo = false := by decide +kernel

/-- A cache with line 0 in each state, with and without a waiting load, live and dead. -/
def cached (st : CState) (w : Option CacheWait) (dead : BitVec 5 := 0) : State :=
  (run 0).onChord (fun h => { h with dead := dead, wrapped := dead, l1d := upd h.l1d 0 (fun _ =>
    [⟨line0, 0, st, lineCells 0 0, false, w, none⟩]) })
theorem witness_ChordCacheResults :
    (∀ st ∈ [CState.s, .e, .m, .miA, .ciA, .iiA, .isD, .imD, .smD],
        ∀ w ∈ [none, some (CacheOp.start (.load .lw 5) 0x1000003C)],
      (cached st w).l1 0 line0 = some ⟨line0, 0, st, lineCells 0 0, false, w, none⟩ ∧
        (cached st w).chord.wrapped.getLsbD 0 = false ∧ (cached st w).ready (.probe .take 0 line0) = true) ∧
    lineOf 0x1000003C = line0 ∧ (0x1000003C : Word).toNat % 4 = 0 ∧ (run 0).l1 0 line0 = none ∧
    (cached .m none 1).chord.wrapped.getLsbD 0 = true ∧ CState.m.stable = true ∧
    ((run 0).onChord (fun h => { h with net := [.probe .kill 0 line0, .probe .take 0 line0] })).ready (.probe .take 0 line0) = false := by
  decide +kernel

def fl (mask : BitVec 5) (f : Slice → Slice := id) : State := (home (some (1, false)) f).onChord (fun h => { h with flush := true, flushMask := mask, flushUse := mask })
theorem witness_ChordControlResults : (fl 1).chord.flush = true ∧
    (∀ q : SliceId, (fl 1).chord.slice[q].flushed = [] ∧
      (fl 1).chord.slice[q].tracked.all (fun l => (fl 1).chord.slice[q].holders l &&& (fl 1).chord.flushUse == 0) = true ∧
      (fl 1).chord.slice[q].txns = []) ∧
    ((fl 1).onChord (fun h => { h with flushHeld := true })).chord.flushHeld = true ∧
    (fl 2 (fun h => { h with flushed := [(line0, 2)] })).chord.slice[(0 : SliceId)].flushed ≠ [] ∧ (home none).chord.flush = false ∧
    (∀ q : SliceId, (home none).chord.slice[q].tracked = []) ∧
    (home none (fun h => { h with flushing := true })).chord.slice[(0 : SliceId)].flushing = true ∧
    (fl 1).chord.slice[(0 : SliceId)].tracked ≠ [] ∧
    ((home none).onRst (fun r => { r with lc := .factory })).rst.lc = .factory ∧
    (home none).chord.slice[(0 : SliceId)].mode = .checked ∧ (home none).chord.slice[(0 : SliceId)].switchTo = none ∧
    (home none (fun h => { h with switchTo := some .mirrorOnly, txns := [txn .own 0 0] })).chord.slice[(0 : SliceId)].switchTo =
      some .mirrorOnly ∧ (txn .own 0 0).active = true ∧
    ((home none).onChord (fun h => { h with reclaiming := 16 })).chord.reclaiming ≠ 0 ∧
    (∀ q : SliceId, (home none).walkReady 4 q = true) ∧ (home none).chord.reclaiming = 0 := by decide +kernel

/-! ## Witnesses: the Governor, the Fault Hub, reset and start-up -/

/-- The Governor in a state, at 500 ms of LINE_TIME, with ARM_IN as `arm` says. -/
def gov (st : GovState) (arm : Bool) (f : Gov → Gov := id) : State :=
  ((State.reset.onGov (fun x => f { x with state := st })).onAon (fun a => { a with armA := !arm, armB := !arm })).onMetr
    (fun m => { m with lineTime := 12000000 })
theorem witness_GovernorRequestResults : (gov .disarmed false).armIn = false ∧ (gov .disarmed true).armIn = true ∧
    (gov .disarmed true).gov.hasCommit = true ∧ armAllowed State.reset.rst.lc = armAllowed State.reset.rst.lc ∧
    armAllowed .factory = true ∧ (gov .disarmed true (fun x => { x with commitWin := true })).gov.commitWin = true ∧
    (gov .armed true).gov.state = .armed ∧ (gov .fermata true).gov.state = .fermata ∧ (gov .permitted true).gov.state = .permitted ∧
    (gov .armed true).metr.lineTime.toNat - (0 : Time).toNat ≤ 500 * Config.ticksPerMs ∧
    ¬ ((gov .armed true).onMetr (fun m => { m with lineTime := 12000001 })).metr.lineTime.toNat - (0 : Time).toNat ≤
      500 * Config.ticksPerMs ∧
    ((gov .armed true).formed && (gov .armed true).rst.opt.role == .a) = false ∧ (gov .fermata true).rst.coda = false := by
  decide +kernel
/-- CLEAR_FERMATA's conditions, a commit window with a right and a wrong CRC, with and without a valid plan, and a formed pair of A. -/
def calm (cycle : Bool) : State := ((gov .fermata true).onAon (fun a => { a with
  estopA := true, estopB := true, estopOkSince := some 0, armCycle := cycle })).onMetr (fun m => { m with refOk := true })
def window9 (crc : Word) (ok : Bool) : State := (gov .disarmed true (fun x => { x with commitWin := true, clampCrcExp := crc })).onUnis
  (fun u => { u with planStaged := Vector.replicate 16 ⟨0, 1, 0, ok⟩ })
def pairA : State := (((gov .armed true (fun x => { x with stage := some (0, 9), nonce := 9 })).onMirl (fun m => { m with
  pair := .paired, proposed := some (2, 9, true), linkUp := true, enable := true })).onRst (fun r => { r with
    seq := none, opt := { r.opt with role := .a } }))
set_option maxRecDepth 20000 in
theorem witness_GovernorCommit : crc32cWords (window9 zeroClampCrc true).gov.clampStaged.toList = (window9 zeroClampCrc true).gov.clampCrcExp ∧
    (window9 0 true).gov.clampCrcExp = 0 ∧ (window9 0 true).commitMask = 15 ∧
    (getN (window9 0 true).unis.planStaged 15 ⟨0, 0, 0, false⟩).valid = true ∧
    (getN (window9 0 false).unis.planStaged 15 ⟨0, 0, 0, false⟩).valid = false := by decide +kernel
/-- Role B with its peer's EPOCH_GO received, and a window that was left open in FERMATA. -/
def pairB : State := (pairA.onMirl (fun m => { m with going := some (2, 9, 0, true) })).onRst (fun r => { r with
  opt := { r.opt with role := .b } })
theorem witness_GovernorFermata : (calm true).causesClear = true ∧
    ((gov .fermata true).onAon (fun a => { a with hot := true })).causesClear = false ∧
    ((calm true).aon.armCycle && (calm true).armIn) = true ∧ ((calm false).aon.armCycle && (calm false).armIn) = false ∧
    (pairA.formed && pairA.rst.opt.role == .a) = true ∧ pairA.mirl.proposed = some (2, 9, true) ∧ pairA.epochAcked = true ∧
    (pairA.onMirl (fun m => { m with proposed := none })).epochAcked = false ∧ pairB.epochAcked = true ∧ pairB.rst.opt.role = .b ∧
    pairB.armIn = true ∧ pairB.gov.stage = some (0, 9) ∧ pairB.metr.judged = none ∧
    (gov .armed true (fun x => { x with commitWin := true })).gov.commitWin = true := by decide +kernel

theorem witness_SafetyInputResults : let a := State.reset.aon
    let s := gov .armed true
    (a.armA && a.armB) = true ∧ (s.aon.armA && s.aon.armB) = false ∧ s.gov.state = .armed ∧ s.armIn = true ∧
      (gov .armed false).armIn = false ∧ (s.onAon (fun x => { x with estopA := false })).aon.estopA ≠ s.aon.estopB ∧
      a.estopA = a.estopB ∧ (s.onAon (fun x => { x with armA := true })).aon.armA ≠ s.aon.armB ∧ a.armA = a.armB ∧
      (s.onGov (fun x => { x with rbSkip := 1 })).gov.rbSkip ≠ 0 ∧ (s.onGov (fun x => { x with rbBad := 1 })).gov.rbBad = 1 ∧
      State.reset.gov.rbSkip = 0 := by decide +kernel
/-- An ARM cycle completes: B released alone, A low, after a long release and with every cause away. -/
theorem witness_SafetyInputResults_cycle : let s := (calm false).onAon (fun a => { a with armA := false, armB := true, armOffLong := true })
    s.armIn = false ∧ s.aon.armOffLong = true ∧ (s.aon.armA && s.aon.armB) = false ∧
      ({ s with aon := { s.aon with armA := false, armB := false } } : State).causesClear = true := by decide +kernel

/-- A class of each kind. -/
def hubFree : State := State.reset.onRst (fun r => { r with seq := none })
theorem witness_FaultReportResults : State.reset.hubHeld = true ∧ hubFree.hubHeld = false ∧ hubFree.hub.order.length < 64 ∧
    ([Klass.c0, .c1, .c3, .c4, .c5].all (fun k => FaultSource.all.any (fun x =>
      x != .trkEngine && x != .voiceWdog && x != .fabricCe && x != .fabricUe &&
        hubFree.resolve (hubFree.applied x 0 0).1 x 0 0 == k))) = true ∧
    hubFree.hub.pending.contains ⟨.estop, 0, 0⟩ = false ∧
    (hubFree.onHub (fun h => { h with pending := [⟨.estop, 0, 0⟩] })).hub.pending.contains ⟨.estop, 0, 0⟩ = true ∧
    hubFree.rst.lc ≠ .deployed ∧ hubFree.gov.state = .disarmed ∧ FaultSource.ofId hubFree.hub.injSrc.toNat = some .estop ∧
    FaultSource.ofId 63 = none ∧ ((gov .armed true).onRst (fun r => { r with lc := .deployed })).rst.lc = .deployed := by decide +kernel

/-- One request of each level, with no sequence running, and each step of the release order. -/
def asked (q : RstReq) : State := State.reset.onRst (fun r => { r with seq := none, requests := [q] })
def seqAt (n : Nat) : State := State.reset.onRst (fun r => { r with seq := some ⟨.l0, 0, n⟩ })
/-- A calibration in range, and one whose ADC offset is not. -/
def cal (offset : Int) : Calibration := ⟨offset, 0, [2500, 2500], 10000, 0⟩
/-- Every block's clock can run. -/
def clocked (s : State) : State := s.onCres (fun c => { c with power := Vector.replicate 29 .run })
theorem witness_ResetResults_clocks : ((domainOf ⟨0, .l0, 0, true⟩).all (clocked State.reset).clockable) = true ∧
    ((domainOf ⟨4, .l2, 0, false⟩).all State.reset.clockable) = false ∧
    (∀ r ∈ slices.map rqSlice ++ clusters.map rqCl, (clocked State.reset).powerOf r = .run) ∧
    (∃ r ∈ slices.map rqSlice ++ [rqStw], State.reset.clockable r = false) ∧ State.reset.aon.railOkSince ≠ none ∧
    (State.reset.onAon (fun a => { a with railOkSince := none })).aon.railOkSince = none ∧
    calibrated (cal 8) State.reset.rcOnly = true ∧ calibrated (cal 9) State.reset.rcOnly = false ∧
    (State.reset.onRst (fun r => { r with optionHold := true })).rst.optionHold = true ∧ State.reset.govIdle = true ∧
    (gov .armed true).govIdle = false ∧ State.reset.memc.injGo = false := by decide +kernel
theorem witness_ResetResults : (∀ l ∈ [Level.l0, .l1, .l2], (asked ⟨0, l, 0, true⟩).rst.requests = [⟨0, l, 0, true⟩]) ∧
    (asked ⟨4, .l3, 3, false⟩).rst.requests = [⟨4, .l3, BitVec.ofNat 8 3, false⟩] ∧
    (asked ⟨4, .l4, 0x25, false⟩).rst.requests = [⟨4, .l4, 0x25, false⟩] ∧ (asked ⟨0, .l0, 0, true⟩).rst.seq = none ∧
    (∀ n ∈ [3, 5, 6, 8], (seqAt n).rst.seq = some ⟨.l0, 0, n⟩) ∧ State.reset.rst.requests = [] ∧
    State.reset.rst.fuses.reach[(2 : Fin 10)] = 0 ∧ State.reset.rst.fuses.reach[(4 : Fin 10)] = 0 ∧
    (asked ⟨0, .l0, 0, true⟩).rst.optionHold = false ∧
    (State.reset.onRst (fun r => { r with reqLevel := 2 })).rst.reqLevel = 2 ∧ (State.reset.onRst (fun r => { r with reqLevel := 0 })).rst.reqLevel = 0 := by decide +kernel

/-- The option phase waits; BIST has slices to run; the ROM waits for a download; Drunor runs in READY's conditions. -/
def bist (xs : List (Fin 8)) : State := (State.reset.onRst (fun r => { r with
  bistTodo := xs, lc := .factory, bistSlices := 1 })).onCres (fun c => { c with grants := [rqBist] })
def result (fatal : Bool) (ms : Byte) : BistResult :=
  ⟨fatal, 0, 0, 0, false, [], Vector.replicate 4 ⟨[], []⟩, false, ms⟩
def rom : State := (State.reset.onRst (fun r => { r with
  seq := some ⟨.l0, 0, 7⟩, opt := { r.opt with bootsel := 2 }, drunor := false })).onCore stw (fun c => { c with inReset := false })
theorem witness_StartUpResults_options : let o := reading [List.replicate 16 5] false (some fusesShipped)
    strapsOf o.straps = some 5 ∧ o.optr = List.replicate 8 0 ∧ State.reset.lcRead o = some .blank ∧ o.refQualified = true ∧
      (field (5 : BitVec 4) 2 2 : BitVec 2) ≠ 2 ∧ State.reset.rst.seq = some ⟨.l0, 0, 2⟩ ∧ o.resetHeld = false ∧
      o.fuses = some fusesShipped ∧ State.reset.rst.array = none ∧ State.reset.rst.restarts + 1 < 15 ∧
      15 ≤ (State.reset.onRst (fun r => { r with restarts := 14 })).rst.restarts + 1 := by decide +kernel
theorem witness_StartUpResults : (bist [7]).holds rqBist = true ∧ State.reset.holds rqBist = false ∧
    (bist [0]).bistIsFatal 0 (result false 0) = false ∧ (bist [0]).bistIsFatal 0 (result true 0) = true ∧
    overran (result true 0) 0 = false ∧ overran (result true 255) 0 = true ∧ (bist [0, 7]).rst.bistTodo.tail ≠ [] ∧
    (bist [0]).bistIsFatal 0 (result true 255) = true ∧ (bist [7]).rst.bistManual = false ∧ (bist [7]).rst.bistFatal = none ∧
    (bist [7]).rst.attempts.toNat < 2 ∧ (bist []).rst.bistTodo = [] ∧ (bist [7]).rst.lc = .factory ∧
    (bist [7]).gov.state = .disarmed ∧ (bist [7]).rst.bistSlices ≠ 0 ∧ State.reset.rst.bistSlices = 0 ∧
    (State.reset.onRst (fun r => { r with bootWdog := true, attempts := 2 })).rst.attempts.toNat = 2 ∧
    (State.reset.onRst (fun r => { r with bootWdog := false })).rst.bootWdog = false ∧
    (bist []).codaOption = none ∧ (rom.onRst (fun r => { r with codaDue := some 1 })).rst.codaDue = some 1 ∧
    (State.reset.onRst (fun r => { r with drunor := true })).readyMet = true ∧ State.reset.readyMet = false ∧
    State.reset.hmbx.ready = false ∧ State.reset.hmbx.fifo.length < 64 := by decide +kernel
/-- Drunor accepted from a download that holds no application; every Voice's cluster runs. -/
theorem witness_StartUpResults_app : let s := clocked ((bist []).onRst (fun r => { r with drunor := true, drunorSrc := some .download }))
    s.rst.drunor = true ∧ s.hmbx.ready = false ∧ s.rst.drunorSrc = some .download ∧ (∀ v : Vc, s.powerOf (rqVoice v) = .run) ∧
      s.rst.lc ≠ .blank ∧ s.rst.lc ≠ .retired ∧ appPresent (appPart (s.imageBytes .download)) = false := by decide +kernel
theorem witness_StartUpResults_image : rom.inRom = true ∧ rom.bootOrder.find? (fun x => !rom.rst.rejected.contains x) = some .download ∧
    (rom.imageFailure (rom.imageBytes .download) false).isSome = true := by decide +kernel

/-! ## Witnesses: the mailbox, Drunor and the Mirror Link -/

/-- The window with the option phase over; HMBX with a command of opcode `op` and these parameter words in it, accepted, its CRC right. -/
def openWindow (f : Hmbx → Hmbx := id) (cmd : Nat → Native := fun _ => 0) : State :=
  ((run stw).onRst (fun r => { r with seq := none, drunor := true })).onHmbx
    (fun h => f { h with ready := true, cmd := Vector.ofFn (fun i => cmd i.val) })
def header (op len : Nat) (crc : Word) : Native :=
  place 128 0 (7 : BitVec 16) ||| place 128 16 (BitVec.ofNat 16 op) ||| place 128 32 (BitVec.ofNat 16 len) ||| place 128 96 crc
def rang (op : Nat) (ps : List Native) (len : Nat := 16 * ps.length) : State :=
  let crc := crc32c (bytesOf 12 (header op len 0) ++ ((ps.map (bytesOf 16)).flatten).take len)
  openWindow (fun h => { h with busy := true, busyTag := 7, cur := some (cmdOf (header op len crc)) })
    (fun i => (header op len crc :: ps).getD i 0)
def journalled (f : Drunor → Drunor) (s : State) : State := s.onDrunor f
def inState (st : GovState) (s : State) : State := s.onGov (fun x => { x with state := st })
/-- An event FIFO of n entries. -/
def events (n : Nat) : State := openWindow (fun h => { h with fifo := List.replicate n 5 })

theorem witness_MailboxResults : (openWindow).hostOpen = true ∧ State.reset.hostOpen = false ∧ State.reset.spiDead = true ∧
    (openWindow).spiDead = false ∧ (openWindow).rst.seq = none ∧ (openWindow).rst.optionHold = false ∧
    (openWindow).rst.fuses.reach[(3 : Fin 10)] = 0 ∧
    (events 1).hmbx.fifo = 5 :: [] ∧ (events 0).hmbx.fifo = [] ∧ (events 63).hmbx.fifo.length + [(0 : Native)].length ≤ 64 ∧
    64 < (events 64).hmbx.fifo.length + [(0 : Native)].length ∧ (field (0x5FF : BitVec 16) 12 4 : BitVec 4) = 0 ∧
    (field (0x1000 : BitVec 16) 12 4 : BitVec 4) ≠ 0 ∧ frameLevel [0x99] = none ∧ (openWindow).hmbx.busy = false ∧
    (openWindow).eventWords .ready ≠ [] ∧ (openWindow).eventWords (.entries []) = [] := by decide +kernel
def answered (r : Response) (crc : Option Word) (s : State) : State :=
  s.onHmbx (fun h => { h with prepared := crc.elim (some r) (fun _ => none), stored := crc.map (fun c => (c, r)) })
set_option maxRecDepth 20000 in
theorem witness_MailboxResults_done : let r : Response := ⟨7, 1, 0, 0, [], 0⟩
    (answered r none (rang 1 [])).hmbx.prepared = some r ∧ ({ r with data := [0] } : Response).data.length = 1 ∧
    (rang 1 []).romSet = false ∧ (rang 1 []).memc.injGo = false ∧ (rang 1 []).chord.net = [] ∧ (∀ c : Cl, (rang 1 []).chord.l1d[c] = []) ∧
    ((rang 1 []).onMemc (fun m => { m with injGo := true, injKind := 4, injAddr := 0x1070240 })).memc.injGo = true ∧
    16 * (0x1070240 : BitVec 28).toNat = rspBuffer + 16 * 0 ∧
    (rang 1 []).hmbx.busy = true ∧ (rang 1 []).headerCrcOk = true ∧
    (rang 1 []).hmbx.prepared = none ∧ (rang 1 []).hmbx.stored = none ∧
    ((rang 1 []).onHmbx (fun h => { h with cmd := updN h.cmd 1 (fun _ => 1) })).headerCrcOk = true ∧
    ((rang 1 [0]).onHmbx (fun h => { h with cmd := updN h.cmd 1 (fun _ => 1) })).headerCrcOk = false ∧
    (cmdOf (rang 0x99 []).hmbx.cmd[0]).opcode.toNat ∉ opcodes ∧ (rang 0x99 []).headerCrcOk = true ∧
    (answered r (some (cmdOf (rang 1 []).hmbx.cmd[0]).crc) (rang 1 [])).hmbx.stored = some ((cmdOf (rang 1 []).hmbx.cmd[0]).crc, r) ∧
    (answered r (some 0) (rang 1 [])).hmbx.stored = some (0, r) ∧ (cmdOf (rang 1 []).hmbx.cmd[0]).crc ≠ 0 ∧
    (cmdOf (rang 1 []).hmbx.cmd[0]).tag = r.tag := by decide +kernel

/-- Every opcode's command is executed, so the premises of the Drunor statements are met for each. -/
def accepted (op : Nat) (ps : List Native) : Bool := let s := rang op ps
  s.hmbx.busy && s.hmbx.prepared.isNone && s.hmbx.inProgress.isNone && s.rst.drunor && s.stewardUp && s.precheck == .execute &&
    s.hmbx.cur.any (fun c => c.opcode.toNat == op && c.length == 16 * ps.length)
set_option maxRecDepth 20000 in
theorem witness_DrunorCommandResults : [1, 2, 0x12, 0xA0, 0x20, 0x21, 0x60, 0x32, 0x82].all (fun op => accepted op []) = true ∧
    [0x22, 0x23, 0x31, 0x40, 0x50, 0x80, 0x90, 0xF0].all (fun op => accepted op [1]) = true ∧ accepted 0x30 [1, 0] = true ∧
    [0x10, 0x11, 0x81].all (fun op => accepted op [0, 0]) = true ∧ [1, 2, 3, 4, 5].all (fun k => accepted 0x70 [k]) = true := by
  decide +kernel
theorem witness_DrunorCommandResults_state : let s := rang 0x50 [1]
    s.formed = false ∧ (s.rst.opt.role = .b → False) ∧ s.mayStep = true ∧ (inState .armed s).gov.state = .armed ∧
    (inState .armed s).mayStep = false ∧ s.cres.season = .winter ∧ (s.onCres (fun c => { c with season := .autumn })).cres.season ≠ .winter ∧
    s.mirl.conflict = false ∧ s.mirl.linkUp = false ∧ s.rst.coda = false ∧
    pairA.formed = true ∧ pairA.rst.opt.role = .a ∧ (pairA.onRst (fun r => { r with opt := { r.opt with role := .b } })).rst.opt.role = .b ∧
    (pairA.onMirl (fun m => { m with observer := true })).mirl.observer = true := by decide +kernel
/-- A judged frame in buffer 1, with places to read. -/
theorem witness_DrunorCommandResults_channels :
    ((openWindow).onMetr (fun m => { m with judged := some ⟨5, 1, 0, 0, 0⟩ })).metr.judged = some ⟨5, 1, 0, 0, 0⟩ ∧
    (readPlaces 1 true 131008 62).length ≤ 62 ∧ 131008 + 62 ≤ 131072 := by decide +kernel

def winterly (s : State) : State := s.onCres (fun c => { c with season := .winter })
def staged (bs : List Byte) (total : Nat) (s : State) : State := s.onDrunor (fun d => { d with
  cfg := bs, cfgTotal := total, fw := bs, fwTotal := total, fwKind := some false })
theorem witness_DrunorServiceResults : let s := rang 0x10 [0, 0]
    s.stewardUp = true ∧ s.rst.optionHold = false ∧ (clocked s).clockable (rqVoice 3) = true ∧ s.clockable (rqVoice 3) = false ∧
    s.eligible 3 = true ∧ s.hmbx.bootWait = false ∧ s.metr.judged = none ∧ s.metr.lineTime.toNat + Config.ticksPerMs < 2 ^ 64 ∧
    (s.formed = false ∨ s.rst.opt.role ≠ .b) ∧ (staged [1] 17 s).drunor.cfg.length = 1 ∧ (staged [1] 17 s).drunor.cfgTotal = 17 ∧
    (winterly s).quiet = true ∧ (inState .armed s).quiet = false ∧ (staged [1] 17 s).drunor.fwKind = some false ∧
    (staged [] 0 s).slotFailure (staged [] 0 s).drunor.fw ≠ none ∧ s.rst.lc = .blank ∧
    ((s.onRst (fun r => { r with lc := .factory })).rst.lc = .factory) ∧ s.gov.state = .disarmed ∧ s.appSource = none ∧
    (s.onDrunor (fun d => { d with appStaged := some [1] })).drunor.appStaged = some [1] ∧ s.gov.zone.getLsbD 3 = false ∧
    s.unis.out[(0 : Vc)].count.toNat < 2 ∧ s.peerRefusal ≠ none ∧ s.hmbx.resetLater = none ∧
    (s.onHmbx (fun h => { h with resetLater := some .l1, done := true, busy := false })).hmbx.resetLater = some .l1 ∧
    s.rst.fuses.reach[(4 : Fin 10)] = 0 := by decide +kernel
/-- An image of no record but the end, with its digest expected; the plans of sixteen masks. -/
theorem witness_DrunorServiceResults_config : let s := staged [1, 2, 3] 3 (winterly (rang 0x11 [0, 0]))
    s.drunor.cfg ≠ [] ∧ s.drunor.cfg.length = s.drunor.cfgTotal ∧ s.drunor.cfg.length % 16 ≠ 0 ∧
    sha256 s.drunor.cfg ≠ digestOfBytes (s.paramBytes 0 32) := by decide +kernel

/-- The Mirror Link enabled in role A, with its fields as `f` says. -/
def mirror (f : Mirl → Mirl := id) (role : Role := .a) : State :=
  ((openWindow).onMirl (fun m => f { m with enable := true, linkUp := true })).onRst (fun r => { r with opt := { r.opt with role := role } })
theorem witness_MirrorLinkResults : State.reset.rst.opt.role = .solo ∧ (mirror).rst.opt.role ≠ .solo ∧ State.reset.mirl.enable = false ∧
    (mirror).mirl.enable = true ∧ (mirror (fun m => { m with linkUp := false })).mirl.linkUp = false ∧ (mirror).mirl.linkUp = true ∧
    (mirror).drunor.awaitPeer = false ∧ (mirror (fun m => { m with unacked := [(3, .delta 1 0 [] 0)] })).mirl.unacked =
      [] ++ (3, Packet.delta 1 0 [] 0) :: [] ∧ (mirror).mirl.unacked = [] ∧
    (mirror (fun m => { m with ackq := [.ack 1] })).mirl.ackq = .ack 1 :: [] ∧
    (mirror (fun m => { m with unacked := [(3, .delta 1 0 [] 0)], resend := 1 })).mirl.resend = ([] : List (Byte × Packet)).length + 1 ∧
    (mirror (fun m => { m with txq := [.delta 1 0 [] 0] })).mirl.txq ≠ [] ∧ (mirror).mirl.txq = [] ∧ (mirror).mirl.session = none ∧
    (mirror (fun m => { m with session := some ⟨true, 3, 0, false, [], 0⟩ })).mirl.session = some ⟨true, 3, 0, false, [], 0⟩ ∧
    (0 : Byte) = (mirror).mirl.lastSeq + 1 ∧ ((mirror).mirl.lastSeq - (0xFF : Byte)).toNat < 128 ∧
    ((mirror).mirl.lastSeq - (0x80 : Byte)).toNat < 128 ∧ 0 < ((1 : Byte) - ((mirror).mirl.lastSeq + 1)).toNat ∧
    ((15 : Byte) - ((mirror).mirl.lastSeq + 1)).toNat < 16 ∧ (mirror).mirl.gapNaked = false := by decide +kernel
theorem witness_PairResults : (mirror).mirl.going = none ∧ (mirror).mirl.enable = true ∧ (mirror).mirl.linkUp = true ∧
    (⟨0, 0, false, 0⟩ : PktHdr).seq = (mirror).mirl.lastSeq + 1 ∧ (mirror).mirl.pair ≠ .handshake ∧
    (mirror (fun m => { m with going := some (2, 9, 100, true) })).mirl.going = some (2, 9, 100, true) ∧
    (mirror (fun m => { m with pair := .paired }) .b).formed = true ∧ (mirror (fun m => { m with pair := .paired }) .b).rst.opt.role = .b ∧
    (mirror (fun m => { m with pair := .paired }) .b).rst.optionHold = false ∧ (mirror (fun m => { m with
      going := some (2, 9, 0, false) })).mirl.going = some (2, 9, 0, false) ∧ (pairB.onMirl (fun m => { m with
      proposed := some (2, 9, true), going := none })).mirl.proposed = some (2, 9, true) ∧ (pairB.acksEpoch 8) = false ∧
    (mirror (fun m => { m with soloPending := true })).mirl.soloPending = true ∧ (mirror).metr.openAt = none ∧
    (mirror (fun m => { m with linkUp := false, relinkHeld := true })).mirl.relinkHeld = true ∧
    (mirror).formed = false ∧ (mirror).memc.injGo = false ∧ (mirror).rst.drunor = true ∧ (mirror (fun m => { m with
      session := some ⟨false, 1, 16, true, [], 0⟩ })).mirl.session = some ⟨false, 1, 16, true, [], 0⟩ ∧ (mirror).mirl.requeued = none ∧
    sessionOk 1 16 = true ∧ sessionOk 0 16 = false ∧ (mirror).rst.fuses.reach[(8 : Fin 10)] = 0 ∧ (mirror).rst.seq = none ∧
    (field (0 : Native) 0 2 : BitVec 2) ≠ roleNumber (mirror).rst.opt.role ∧
    (field (1 : Native) 0 2 : BitVec 2) = roleNumber (mirror).rst.opt.role := by decide +kernel

/-! ## Witnesses: the invariants -/

/-- The state after reset has each invariant, and takes a step: the tick of an empty queue. -/
theorem witness_EveryStepKeepsG0Zero : State.reset.g0Zero ∧ ∃ t, step State.reset = .next t := by
  refine ⟨?_, _, rfl⟩
  unfold State.g0Zero
  decide +kernel
theorem witness_EveryStepKeepsQueuesAndDirectories : State.reset.queuesOk ∧ State.reset.directoryOk := by
  unfold State.queuesOk State.directoryOk
  decide +kernel
theorem witness_EveryStepKeepsTheMemoriesCanonical : State.reset.memoryOk := by
  unfold State.memoryOk
  decide +kernel

end Sys2Proof.Tests
end

section
/-!
PROOFS. What a register is: the blocks with counters, the registers on which a write has an effect of its own, and that an
unimplemented offset is none of them (R11). A store's effects are read off these lists once, in `regStoreOk_plain`.
-/
namespace Sys2Proof.Machine

/-! ## Conditionals -/

theorem ite_cases {α : Type} {c : Prop} [Decidable c] {x y z : α} (h : (if c then x else y) = z) : (c ∧ x = z) ∨ (¬ c ∧ y = z) := by
  by_cases hc : c
  · rw [if_pos hc] at h; exact .inl ⟨hc, h⟩
  · rw [if_neg hc] at h; exact .inr ⟨hc, h⟩

theorem ite_eq_of {α : Type} {c : Prop} [Decidable c] {x y z : α} (hx : c → x = z) (hy : y = z) : (if c then x else y) = z := by
  by_cases hc : c
  · rw [if_pos hc, hx hc]
  · rw [if_neg hc, hy]

theorem mem_ite_cases {α : Type} {c : Prop} [Decidable c] {x : α} {l m : List α} (h : x ∈ if c then l else m) :
    (c ∧ x ∈ l) ∨ x ∈ m := by
  by_cases hc : c
  · rw [if_pos hc] at h; exact .inl ⟨hc, h⟩
  · rw [if_neg hc] at h; exact .inr h

theorem not_of_ite_some_eq_none {α : Type} {c : Prop} [Decidable c] {a : α} {x : Option α} (h : (if c then some a else x) = none) :
    ¬ c ∧ x = none := by
  rcases ite_cases h with ⟨-, h⟩ | h
  · cases h
  · exact h

theorem orElse_none {α : Type} {x y : Option α} (h : (x <|> y) = none) : x = none ∧ y = none := by
  cases x with
  | none => exact ⟨rfl, h⟩
  | some a => cases h

/-! ## Blocks and counters -/

@[simp] theorem trkOfBlk_blkTrk (t : TrkId) : trkOfBlk (blkTrk t) = some t := by
  have h : 16 ≤ (blkTrk t).val ∧ (blkTrk t).val < 32 := by simp [blkTrk]; omega
  unfold trkOfBlk
  rw [dif_pos h]
  simp [blkTrk]

theorem trkOfBlk_eq_some {b : BlkId} {t : TrkId} (h : trkOfBlk b = some t) : b = blkTrk t := by
  unfold trkOfBlk at h
  split at h
  · cases h
    apply Fin.ext
    simp [blkTrk]; omega
  · cases h

/-- The blocks with 32-bit counters, trunk engines apart: the first counter's offset and how many there are (R103, R127, R200, R228,
R232, R253, R293, R319, R348). -/
def counterRows : List (BlkId × Nat × Nat) :=
  [(blkFhub, 0x2C, 1), (blkMemc, 0x30, 6), (blkOsti, 0x40, 4), (blkUnis, 0xB0, 4), (blkChord, 0x80, 6), (blkGov, 0x60, 11),
    (blkMetr, 0x50, 2), (blkCres, 0x40, 2), (blkRstc, 0x80, 2), (blkHmbx, 0x40, 5), (blkMirl, 0x60, 6)]

/-- A counter is one of a trunk engine's 14 (R74) or stands in a row of `counterRows`. -/
theorem counterAt_cases {b : BlkId} {o n : Nat} (h : counterAt b o = some n) :
    (∃ t, b = blkTrk t ∧ o = 0x60 + 4 * n ∧ n < 14) ∨ ∃ r ∈ counterRows, b = r.1 ∧ o = r.2.1 + 4 * n ∧ n < r.2.2 := by
  unfold counterAt at h
  extract_lets span at h
  have hs : ∀ {lo k : Nat}, span lo k = some n → lo % 4 = 0 → o = lo + 4 * n ∧ n < k := by
    intro lo k hk hm
    dsimp only [span] at hk
    split at hk
    · cases hk; omega
    · cases hk
  clear_value span
  split at h
  · obtain ⟨t, ht⟩ := Option.isSome_iff_exists.mp ‹_›
    exact .inl ⟨t, trkOfBlk_eq_some ht, hs h rfl⟩
  · right
    iterate 11
      rcases ite_cases h with ⟨hb, h⟩ | ⟨-, h⟩
      · exact ⟨(_, _, _), by decide, hb, hs h rfl⟩
    cases h

theorem acceptsReg_iff (o : Nat) (sz : Size) : acceptsReg o sz = true ↔ (sz = .b4 ∧ o % 4 = 0) ∨ (sz = .b16 ∧ o % 16 = 0) := by
  cases sz <;> simp [acceptsReg, sizeBytes]

theorem isWide_cases {b : BlkId} {o : Nat} (h : isWide b o = true) :
    (∃ t, b = blkTrk t ∧ (o = 0x40 ∨ o = 0x50)) ∨ (b = blkMirl ∧ (o = 0x40 ∨ o = 0x50)) ∨ (b = blkGov ∧ o = 0x50) := by
  unfold isWide at h
  split at h
  · rename_i hb
    have ho : o = 0x40 ∨ o = 0x50 := by simpa using h
    rcases Bool.or_eq_true_iff.mp hb with ht | hm
    · obtain ⟨t, ht⟩ := Option.isSome_iff_exists.mp ht
      exact .inl ⟨t, trkOfBlk_eq_some ht, ho⟩
    · exact .inr (.inl ⟨of_decide_eq_true hm, ho⟩)
  · exact .inr (.inr (by simpa using h))

/-- The registers of a block on which a write has an effect of its own: an RW or W1C field, or a command. Counters and
commit-table fields are apart. -/
def ownWritten (b : BlkId) : List Nat :=
  if (trkOfBlk b).isSome then [0x20, 0x24, 0x2C, 0x30, 0x34, 0x38, 0x210]
  else if b = blkMemc then [0x20, 0x24, 0x28, 0x110, 0x130]
  else if b = blkOsti then [0x20, 0x24, 0x28]
  else if b = blkUnis then [0x20, 0x28, 0x2C, 0x30]
  else if b = blkChord then [0x20, 0x24, 0x28, 0x30, 0x40, 0x50, 0x60, 0x110]
  else if b = blkGov then [0x24, 0x28, 0x3C, 0x44, 0x48]
  else if b = blkFhub then [0x20]
  else if b = blkMetr then [0x20, 0x24, 0x28, 0x2C, 0x40, 0x44, 0x48]
  else if b = blkCres then [0x20, 0x24, 0x34]
  else if b = blkRstc then [0x20, 0x24, 0x28, 0x50, 0x60]
  else if b = blkHmbx then [0x20, 0x30]
  else if b = blkMirl then [0x20, 0x28, 0x2C, 0x30]
  else if b = blkSysctl then [0x80]
  else []

@[simp] theorem ownWritten_blkTrk (t : TrkId) : ownWritten (blkTrk t) = [0x20, 0x24, 0x2C, 0x30, 0x34, 0x38, 0x210] := by
  simp [ownWritten]

/-- Every register on which a write has an effect is implemented. -/
theorem not_mem_ownWritten_of_readOwn_none {s : State} {b : BlkId} {o : Nat} (h : s.readOwn b o = none) : o ∉ ownWritten b := by
  intro hm
  rcases ht : trkOfBlk b with _ | t
  · have hb : ¬ (trkOfBlk b).isSome = true := by simp [ht]
    unfold ownWritten at hm
    rw [if_neg hb] at hm
    clear hb ht
    iterate 12
      rcases mem_ite_cases hm with ⟨rfl, hm⟩ | hm
      · repeat
          rcases List.mem_cons.mp hm with rfl | hm
          · exact Option.some_ne_none _ h
        cases hm
    cases hm
  · obtain rfl := trkOfBlk_eq_some ht
    rw [ownWritten_blkTrk] at hm
    simp only [State.readOwn, trkOfBlk_blkTrk] at h
    repeat
      rcases List.mem_cons.mp hm with rfl | hm
      · exact Option.some_ne_none _ h
    cases hm

/-- A block's trunk, where it is one, is populated. -/
def State.blkPopulated (s : State) (b : BlkId) : Prop := ∀ t, trkOfBlk b = some t → s.populated t = true

/-- An unimplemented offset lies in a populated block, past the common header, at no counter, and where the block has no register of
its own (R11). -/
theorem readReg_eq_none {s : State} {b : BlkId} {o : Nat} (h : s.readReg b o = none) :
    s.blkPopulated b ∧ 0x20 ≤ o ∧ isWide b o = false ∧ counterAt b o = none ∧ s.readOwn b o = none := by
  unfold State.readReg at h
  obtain ⟨hp, h⟩ := not_of_ite_some_eq_none h
  obtain ⟨ho, h⟩ := not_of_ite_some_eq_none h
  obtain ⟨hw, h⟩ := not_of_ite_some_eq_none h
  obtain ⟨-, h⟩ := not_of_ite_some_eq_none h
  have hpop : s.blkPopulated b := by
    intro t ht
    simpa [ht] using hp
  cases hc : counterAt b o with
  | some i => rw [hc] at h; cases h
  | none =>
    rw [hc] at h
    exact ⟨hpop, by omega, Bool.not_eq_true _ ▸ hw, rfl, (not_of_ite_some_eq_none h).2⟩

/-! ## Stores that reach nothing -/

theorem writeTrk_eq_self {s : State} {t : TrkId} {o : Nat} {w : Word} (h : o ∉ [0x20, 0x24, 0x2C, 0x30, 0x34, 0x38, 0x210]) :
    s.writeTrk t o w = s := by
  unfold State.writeTrk
  split <;> simp_all

theorem writeMemc_eq_self {s : State} {o : Nat} {w : Word} (h : o ∉ [0x20, 0x24, 0x28, 0x110, 0x130]) : s.writeMemc o w = s := by
  unfold State.writeMemc
  split <;> simp_all

theorem writeOsti_eq_self {s : State} {o : Nat} {w : Word} (h : o ∉ [0x20, 0x24, 0x28]) : s.writeOsti o w = s := by
  unfold State.writeOsti
  split <;> simp_all

theorem writeUnis_eq_self {s : State} {o : Nat} {w : Word} (h : o ∉ [0x20, 0x28, 0x2C, 0x30]) : s.writeUnis o w = s := by
  unfold State.writeUnis
  split <;> simp_all

theorem writeChord_eq_self {s : State} {o : Nat} {w : Word} (h : o ∉ [0x20, 0x24, 0x28, 0x30, 0x40, 0x50, 0x60, 0x110]) :
    s.writeChord o w = s := by
  unfold State.writeChord
  split
  case h_5 =>
    refine dif_neg fun hs => ?_
    simp only [List.mem_cons, List.not_mem_nil, or_false, not_or] at h
    omega
  all_goals simp at h

theorem writeGov_eq_self {s : State} {o : Nat} {w : Word} (h : o ∉ [0x24, 0x28, 0x3C, 0x44, 0x48]) : s.writeGov o w = s := by
  unfold State.writeGov
  split <;> simp_all

theorem writeFhub_eq_self {s : State} {o : Nat} {w : Word} (h : o ∉ [0x20]) : s.writeFhub o w = s :=
  if_neg (fun e => h (by simp [e]))

theorem writeMetr_eq_self {s : State} {o : Nat} {w : Word} {hw : Bool} (h : o ∉ [0x20, 0x24, 0x28, 0x2C, 0x40, 0x44, 0x48]) :
    s.writeMetr o w hw = s := by
  unfold State.writeMetr
  split <;> simp_all

theorem writeCres_eq_self {s : State} {o : Nat} {w : Word} (h : o ∉ [0x20, 0x24, 0x34]) : s.writeCres o w = s := by
  unfold State.writeCres
  split <;> simp_all

theorem writeRstc_eq_self {s : State} {o : Nat} {w : Word} (h : o ∉ [0x20, 0x24, 0x28, 0x50, 0x60]) : s.writeRstc o w = s := by
  unfold State.writeRstc
  split <;> simp_all

theorem writeHmbx_eq_self {s : State} {o : Nat} {w : Word} {hw : Bool} (h : o ∉ [0x20, 0x30]) : s.writeHmbx o w hw = s := by
  unfold State.writeHmbx
  split <;> simp_all

theorem writeMirl_eq_self {s : State} {o : Nat} {w : Word} (h : o ∉ [0x20, 0x28, 0x2C, 0x30]) : s.writeMirl o w = s := by
  unfold State.writeMirl
  split <;> simp_all

/-- Block and offset are not those of a listed register. -/
theorem not_at {b b' : BlkId} {o o' : Nat} (h : o ∉ ownWritten b) (hm : o' ∈ ownWritten b') :
    ¬ (decide (b = b') && o == o') = true := by
  rintro e
  obtain ⟨rfl, rfl⟩ : b = b' ∧ o = o' := by simpa using e
  exact h hm

/-- A store to a register that is no counter, no commit-table register and not listed in `ownWritten` sets nothing. -/
theorem writeReg_eq_self {s : State} {b : BlkId} {o : Nat} {w hw : Word} (hc : commitReg b o = false) (ho : 0x20 ≤ o)
    (hn : counterAt b o = none) (h : o ∉ ownWritten b) : s.writeReg b o w hw = s := by
  unfold State.writeReg
  simp only [hc, Bool.false_and, State.when_false, hn]
  rw [if_neg (by omega)]
  cases ht : trkOfBlk b with
  | some t =>
    obtain rfl := trkOfBlk_eq_some ht
    exact writeTrk_eq_self (ownWritten_blkTrk t ▸ h)
  | none =>
    clear ht
    refine ite_eq_of (fun e => writeMemc_eq_self (by subst e; exact h)) ?_
    refine ite_eq_of (fun e => writeOsti_eq_self (by subst e; exact h)) ?_
    refine ite_eq_of (fun e => writeUnis_eq_self (by subst e; exact h)) ?_
    refine ite_eq_of (fun e => writeChord_eq_self (by subst e; exact h)) ?_
    refine ite_eq_of (fun e => writeGov_eq_self (by subst e; exact h)) ?_
    refine ite_eq_of (fun e => writeFhub_eq_self (by subst e; exact h)) ?_
    refine ite_eq_of (fun e => writeMetr_eq_self (by subst e; exact h)) ?_
    refine ite_eq_of (fun e => writeCres_eq_self (by subst e; exact h)) ?_
    refine ite_eq_of (fun e => writeRstc_eq_self (by subst e; exact h)) ?_
    refine ite_eq_of (fun e => writeHmbx_eq_self (by subst e; exact h)) ?_
    refine ite_eq_of (fun e => writeMirl_eq_self (by subst e; exact h)) ?_
    exact if_neg (not_at h (by decide))

/-- A store to a register not listed in `ownWritten` issues no command. -/
theorem cmdReg_eq_self {s : State} {i : Initiator} {b : BlkId} {o : Nat} {w : Word} (h8 : o ≠ 8) (h : o ∉ ownWritten b) :
    s.cmdReg i b o w = s := by
  unfold State.cmdReg
  refine (if_neg h8).trans ?_
  cases ht : trkOfBlk b with
  | some t =>
    obtain rfl := trkOfBlk_eq_some ht
    exact if_neg (fun e => h (by simp [e]))
  | none =>
    clear ht
    iterate 3 refine (if_neg (not_at h (by decide))).trans ?_
    refine (dif_neg ?_).trans ?_
    · rintro ⟨rfl, ho⟩
      have hm : o ∉ [0x20, 0x24, 0x28, 0x30, 0x40, 0x50, 0x60, 0x110] := h
      simp only [List.mem_cons, List.not_mem_nil, or_false, not_or] at hm
      omega
    iterate 7 refine (if_neg (not_at h (by decide))).trans ?_
    exact if_neg (not_at h (by decide))

/-! ## Stores beside no hardware update -/

@[simp] theorem laneData_zero (sz : Size) (k : Nat) : laneData sz 0 k = 0 := by
  unfold laneData laneOf field
  split <;> simp

@[simp] theorem hwReg_zero (s : State) (b : BlkId) (o : Nat) : s.hwReg b o 0 = s := rfl

theorem each_eq_self {α : Type} {s : State} {xs : List α} {f : α → State → State} (h : ∀ x ∈ xs, f x s = s) : s.each xs f = s := by
  induction xs with
  | nil => rfl
  | cons x xs ih =>
    have hx : f x s = s := h x (by simp)
    show State.each (f x s) xs f = s
    rw [hx]
    exact ih (fun y hy => h y (by simp [hy]))

theorem mem_lanesAt_self (o : Nat) (sz : Size) : o ∈ lanesAt o sz := by
  unfold lanesAt; split <;> simp

/-- A register past the common header without a commit-table field and without a field or command of its own: a store reaches
a counter there or nothing. -/
structure Plain (b : BlkId) (o : Nat) : Prop where
  commit : commitReg b o = false
  past : 0x20 ≤ o
  own : o ∉ ownWritten b

/-- A store that covers plain registers, and meets no hardware update, counts no ignored commit write, issues no command and
raises no event. -/
theorem regStoreOk_plain {s : State} {i : Initiator} {b : BlkId} {o : Nat} {sz : Size} {d : Native} (hp : s.blkPopulated b)
    (h : ∀ x ∈ lanesAt o sz, Plain b x) :
    s.regStoreOk i b o sz d 0 = (((s.touchBlk i b).noteReserved b o sz).writeWide b o sz d).each (lanesAt o sz).zipIdx
      (fun x s => s.writeReg b x.1 (laneData sz d x.2) 0) := by
  have hmem := mem_lanesAt_self o sz
  have hcommit : (lanesAt o sz).zipIdx.any (fun x => commitReg b x.1) = false := by
    rw [List.any_eq_false]
    intro x hx
    simp [(h x.1 (List.fst_mem_of_mem_zipIdx hx)).commit]
  have hevent : (b == blkHmbx && o == 0x30 && sz == .b16) = false := by
    rw [← Bool.not_eq_true]
    intro hc
    obtain ⟨rfl, rfl, -⟩ : b = blkHmbx ∧ o = 0x30 ∧ sz = .b16 := by simpa only [Bool.and_eq_true, beq_iff_eq, and_assoc] using hc
    exact (h _ hmem).own (by decide)
  unfold State.regStoreOk
  rw [if_neg]
  · simp only [hcommit, hevent, Bool.and_false, State.when_false, laneData_zero, hwReg_zero]
    rw [each_eq_self (fun _ _ => rfl), each_eq_self]
    intro x hx
    have hx := h x.1 (List.fst_mem_of_mem_zipIdx hx)
    exact cmdReg_eq_self (by have := hx.past; omega) hx.own
  · cases ht : trkOfBlk b with
    | none => simp
    | some t => simp [hp t ht]

/-! ## Unimplemented offsets -/

theorem inWords_ne_none {base : Nat} {ws : List Native} {o : Nat} (h₁ : base ≤ o) (h₂ : o < base + 16 * ws.length) :
    inWords base ws o ≠ none := by
  unfold inWords
  rw [if_pos ⟨h₁, h₂⟩]
  exact Option.some_ne_none _

theorem sentinel_implemented {s : State} {t : TrkId} {o : Nat} (ha : o % 4 = 0) (hc : commitReg (blkTrk t) o = true) :
    s.readTrk t o ≠ none := by
  intro h
  obtain ⟨hr, hl⟩ : (0x100 ≤ o ∧ o < 0x200) ∧ o % 16 ≠ 12 := by simpa [commitReg] using hc
  obtain ⟨-, h⟩ := orElse_none h
  obtain ⟨h, -⟩ := orElse_none h
  rw [if_pos hr] at h
  have : o % 16 = 0 ∨ o % 16 = 4 ∨ o % 16 = 8 := by omega
  rcases this with e | e | e <;> rw [e] at h <;> cases h

theorem faultSource_ofId_ne_none {n : Nat} (h : n < 60) : FaultSource.ofId n ≠ none := by
  have hn : n < FaultSource.all.length := h
  simp [FaultSource.ofId, hn]

theorem gov_commit_implemented {s : State} {o : Nat} (hc : commitReg blkGov o = true) : s.readGov o ≠ none := by
  intro h
  have hc : (o = 0x34 ∨ o = 0x38) ∨ 0x100 ≤ o ∧ o < 0x200 := by
    simpa [commitReg, show (trkOfBlk blkGov).isSome = false from rfl] using hc
  rcases hc with (rfl | rfl) | ⟨h₁, h₂⟩
  · cases h
  · cases h
  · obtain ⟨-, h⟩ := orElse_none h
    obtain ⟨-, h⟩ := orElse_none h
    exact inWords_ne_none h₁ (by simpa using h₂) h

theorem fhub_commit_implemented {s : State} {o : Nat} (hc : commitReg blkFhub o = true) : s.readFhub o ≠ none := by
  intro h
  have hc : o = 0x24 ∨ 0x40 ≤ o ∧ o < 0x40 + 4 * 60 := by
    simpa [commitReg, show (trkOfBlk blkFhub).isSome = false from rfl, show blkFhub ≠ blkGov by decide] using hc
  rcases hc with rfl | hr
  · cases h
  · obtain ⟨-, h⟩ := orElse_none h
    obtain ⟨h, -⟩ := orElse_none h
    rw [if_pos hr, Option.map_eq_none_iff] at h
    exact faultSource_ofId_ne_none (by omega) h

theorem plan_implemented {s : State} {o : Nat} (hc : commitReg blkUnis o = true) : s.readUnis o ≠ none := by
  intro h
  have hr : 0x220 ≤ o ∧ o < 0x400 ∧ o % 0x20 < 0x18 := by
    simpa [commitReg, show (trkOfBlk blkUnis).isSome = false from rfl, show blkUnis ≠ blkGov by decide,
      show blkUnis ≠ blkFhub by decide, and_assoc] using hc
  iterate 4 obtain ⟨-, h⟩ := orElse_none h
  rw [if_pos hr] at h
  exact inWords_ne_none (by omega) (by simp only [planLanes, List.length_cons, List.length_nil]; omega) h

/-- Every register with a commit-table field is implemented. -/
theorem commitReg_of_readOwn_none {s : State} {b : BlkId} {o : Nat} (ha : o % 4 = 0) (h : s.readOwn b o = none) :
    commitReg b o = false := by
  rw [← Bool.not_eq_true]
  intro hc
  cases ht : trkOfBlk b with
  | some t =>
    obtain rfl := trkOfBlk_eq_some ht
    simp only [State.readOwn, trkOfBlk_blkTrk] at h
    exact sentinel_implemented ha hc h
  | none =>
    by_cases hg : b = blkGov
    · subst hg; exact gov_commit_implemented hc h
    by_cases hf : b = blkFhub
    · subst hf; exact fhub_commit_implemented hc h
    by_cases hu : b = blkUnis
    · subst hu; exact plan_implemented hc h
    obtain ⟨rfl, rfl⟩ : b = blkMetr ∧ o = 0x24 := by simpa [commitReg, ht, hg, hf, hu] using hc
    cases h

/-- An unimplemented offset is a plain register. -/
theorem Plain.of_readReg_none {s : State} {b : BlkId} {o : Nat} (ha : o % 4 = 0) (h : s.readReg b o = none) : Plain b o := by
  obtain ⟨-, ho, -, -, h⟩ := readReg_eq_none h
  exact ⟨commitReg_of_readOwn_none ha h, ho, not_mem_ownWritten_of_readOwn_none h⟩

theorem writeReg_of_readReg_none {s u : State} {b : BlkId} {o : Nat} {w hw : Word} (ha : o % 4 = 0) (h : s.readReg b o = none) :
    u.writeReg b o w hw = u :=
  have hx := Plain.of_readReg_none ha h
  have ⟨_, _, _, hn, _⟩ := readReg_eq_none h
  writeReg_eq_self hx.commit hx.past hn hx.own

end Sys2Proof.Machine
end

section
/-!
PROOFS. Accesses of register space: refused widths, the cores' loads and stores, unimplemented offsets (R6, R11). O26.
-/
namespace Sys2Proof.Machine

/-! ## Accesses that end with a bus error (R6) -/

theorem regLoad_refused {s : State} {i : Initiator} {b : BlkId} {o : Nat} {sz : Size} (h : acceptsReg o sz = false) :
    s.regLoad i b o sz = (s, 0, true) := by
  simp [State.regLoad, h]

theorem regStore_refused {s : State} {i : Initiator} {b : BlkId} {o : Nat} {sz : Size} {d hw : Native} (h : acceptsReg o sz = false) :
    s.regStore i b o sz d hw = (s, true) := by
  simp [State.regStore, h]

theorem exec_registerWrite {i : Initiator} {addr : Word} {b : BlkId} {o : Nat} {sz : Size} {d hw : Native} {s : State}
    (h : periphOf addr.toNat = some (b, o)) : exec (.registerWrite i addr sz d false hw) s =
      .next ((s.regStore i b o sz d hw).1.answer 0 false (s.regStore i b o sz d hw).2) := by
  show execRegisterWrite i addr sz d false hw s = _
  simp [execRegisterWrite, h]

theorem exec_registerWrite_refused {i : Initiator} {addr : Word} {b : BlkId} {o : Nat} {sz : Size} {d hw : Native} {p : Bool}
    {s : State} (h : periphOf addr.toNat = some (b, o)) (ha : acceptsReg o sz = false) :
    exec (.registerWrite i addr sz d p hw) s = .next (s.answer 0 false true) := by
  cases p with
  | false => rw [exec_registerWrite h, regStore_refused ha]
  | true =>
    show execRegisterWrite i addr sz d true hw s = _
    simp [execRegisterWrite, h]

theorem regLoad_served {s : State} {i : Initiator} {b : BlkId} {o : Nat} {sz : Size} (ha : acceptsReg o sz = true)
    (hr : s.mayRead i = true) : (s.regLoad i b o sz).2.2 = false := by
  unfold State.regLoad
  simp only [ha, hr, Bool.not_true, Bool.or_self, Bool.false_eq_true, if_false]
  split <;> rfl

/-! ## Loads and stores of the cores to register space -/

section
variable {s : State} {c : Cl} {base : RegF} {imm : BitVec 16} (hi : s.canIssue c = true)
  (ht : (s.core[c].readG base).2 = false)
include hi ht

/-- A scalar load that issues with an untagged base accesses its address. -/
theorem scalarLoad_go (i : Instr) (k : LoadKind) (rd : RegF) : s.scalarLoad c i k rd base imm =
    (s.fetched c).coreLoad c ((s.core[c].readG base).1 + simm imm) k.size (.load k rd)
      (fun s _ v => s.finish c (fun x => x.writeG rd (k.extend v.1) v.2)) := by
  unfold State.scalarLoad State.withAddress
  rw [issue_go s c _ _ _ _ hi rfl (.inr rfl)]
  simp only [fetched_core, ht, Bool.false_eq_true, if_false]

/-- A scalar store that issues with an untagged base accesses its address. -/
theorem scalarStore_go (i : Instr) (sz : Size) (rs : RegF) : s.scalarStore c i sz rs base imm =
    (s.fetched c).coreStore c ((s.core[c].readG base).1 + simm imm) sz
      (((s.core[c].readG rs).1.setWidth 128) &&& byteMask 0 (sizeBytes sz)) (s.core[c].readG rs).2 rs := by
  unfold State.scalarStore State.withAddress
  rw [issue_go s c _ _ _ _ hi rfl (.inr rfl)]
  simp only [fetched_core, ht, Bool.false_eq_true, if_false]

end

section
variable {s : State} {c : Cl} {a : Word} {b : BlkId} {o : Nat} {sz : Size} (h : regionOf c a.toNat = .periph b o)
include h

theorem coreLoad_periph_refused {w : CacheOp} {f : State → Region → Native × Bool → State} (ha : acceptsReg o sz = false) :
    s.coreLoad c a sz w f = s.excLoad c a := by
  simp [State.coreLoad, h, ha]

theorem coreStore_periph_refused {d : Native} {p : Bool} {src : RegF} (ha : acceptsReg o sz = false) :
    s.coreStore c a sz d p src = s.excStore c a := by
  simp [State.coreStore, h, ha]

/-- The Steward reads the register; its egress hold is empty (R109). -/
theorem coreLoad_periph_steward {w : CacheOp} {f : State → Region → Native × Bool → State} (hc : c = stw)
    (ha : acceptsReg o sz = true) (he : s.core[c].egress = []) :
    s.coreLoad c a sz w f = f (s.regLoad .steward b o sz).1 (.periph b o) ((s.regLoad .steward b o sz).2.1, false) := by
  subst hc
  have hi : initiatorOf stw = .steward := rfl
  have hv : (voiceOf stw).isSome = false := rfl
  have hr : s.mayRead .steward = true := rfl
  unfold State.coreLoad
  simp only [h, hi, ha, hr, he, hv, List.any_nil, Bool.not_true, Bool.or_self, Bool.false_eq_true, if_false,
    regLoad_served ha hr]

/-- A Voice's read goes into its egress hold, where the core waits for it (R109). -/
theorem coreLoad_periph_voice {w : CacheOp} {f : State → Region → Native × Bool → State} (hc : c ≠ stw)
    (ha : acceptsReg o sz = true) (he : s.core[c].egress = []) :
    s.coreLoad c a sz w f = s.onCore c (fun k => { k with blocked := true, egress := [⟨.read a sz w, false, false⟩] }) := by
  have hv : c.val < 4 := by
    have : c.val ≠ 4 := fun e => hc (Fin.ext e)
    omega
  have hv : voiceOf c = some ⟨c.val, hv⟩ := dif_pos hv
  have hr : s.mayRead (initiatorOf c) = true := by simp [initiatorOf, hv, State.mayRead]
  unfold State.coreLoad
  simp only [h, ha, hr, he, hv, List.any_nil, Bool.not_true, Bool.or_self, Bool.false_eq_true, if_false,
    Option.isSome_some, if_true, State.onCore, upd, List.nil_append]

end

/-! ## Loads that are served -/

@[simp] theorem touchBlk_mem (s : State) (i : Initiator) (b : BlkId) : (s.touchBlk i b).mem = s.mem := rfl
@[simp] theorem touchBlk_core (s : State) (i : Initiator) (b : BlkId) : (s.touchBlk i b).core = s.core := rfl
@[simp] theorem touchBlk_hdr (s : State) (i : Initiator) (b : BlkId) : (s.touchBlk i b).hdr = s.hdr := rfl
@[simp] theorem touchBlk_readReg (s : State) (i : Initiator) (b b' : BlkId) (o : Nat) :
    (s.touchBlk i b).readReg b' o = s.readReg b' o := rfl
@[simp] theorem noteReserved_mem (s : State) (b : BlkId) (o : Nat) (sz : Size) : (s.noteReserved b o sz).mem = s.mem := by
  unfold State.noteReserved State.when; split <;> rfl
@[simp] theorem noteReserved_core (s : State) (b : BlkId) (o : Nat) (sz : Size) : (s.noteReserved b o sz).core = s.core := by
  unfold State.noteReserved State.when; split <;> rfl
@[simp] theorem when_fresh_hdr (s : State) (p : Bool) : (s.when p State.fresh).hdr = s.hdr := by cases p <;> rfl
@[simp] theorem when_fresh_mem (s : State) (p : Bool) : (s.when p State.fresh).mem = s.mem := by cases p <;> rfl
@[simp] theorem when_fresh_core (s : State) (p : Bool) : (s.when p State.fresh).core = s.core := by cases p <;> rfl

/-- What a pop of a log leaves. -/
theorem popAt_keeps (s : State) (b : BlkId) (o : Nat) :
    (s.popAt b o).hdr = s.hdr ∧ (s.popAt b o).mem = s.mem ∧ (s.popAt b o).core = s.core := by
  unfold State.popAt
  split
  · unfold State.when; split <;> exact ⟨rfl, rfl, rfl⟩
  · repeat' split
    all_goals exact ⟨rfl, rfl, rfl⟩

/-- What a served load leaves: the headers but for RSVD_ACC, the memories, the cores. -/
theorem regLoad_keeps {s : State} {i : Initiator} {b : BlkId} {o : Nat} {sz : Size} (ha : acceptsReg o sz = true)
    (hr : s.mayRead i = true) : (s.regLoad i b o sz).1.hdr = ((s.touchBlk i b).noteReserved b o sz).hdr ∧
      (s.regLoad i b o sz).1.mem = s.mem ∧ (s.regLoad i b o sz).1.core = s.core := by
  unfold State.regLoad
  simp only [ha, hr, Bool.not_true, Bool.or_self, Bool.false_eq_true, if_false]
  split
  · obtain ⟨hh, hm, hc⟩ := popAt_keeps (((s.touchBlk i b).noteReserved b o sz).when (undescribed b o) State.fresh) b o
    exact ⟨hh.trans (by simp), hm.trans (by simp), hc.trans (by simp)⟩
  · dsimp only
    split <;> simp

theorem lw_extend (v : Native) : LoadKind.lw.extend v = field v 0 32 :=
  BitVec.setWidth_eq_extractLsb' (by decide)

/-! ## Unimplemented offsets (R11) -/

section
variable {s : State} {i : Initiator} {b : BlkId} {o : Nat} {sz : Size}

theorem noteReserved_of_none (h : ∃ x ∈ lanesAt o sz, s.readReg b x = none) :
    s.noteReserved b o sz = s.onHdr b (fun h => { h with rsvdAcc := true }) := by
  have : (lanesAt o sz).any (fun x => (s.readReg b x).isNone) = true := by simpa using h
  simp [State.noteReserved, this]

theorem noteReserved_rsvdAcc (h : ∃ x ∈ lanesAt o sz, s.readReg b x = none) : (s.noteReserved b o sz).hdr[b].rsvdAcc = true := by
  rw [noteReserved_of_none h, State.onHdr_hdr, upd_same]

theorem lanesAt_aligned (ha : acceptsReg o sz = true) {x : Nat} (hx : x ∈ lanesAt o sz) : x % 4 = 0 := by
  rcases (acceptsReg_iff o sz).mp ha with ⟨rfl, ho⟩ | ⟨rfl, ho⟩
  · obtain rfl : x = o := by simpa [lanesAt] using hx
    exact ho
  · have : x = o ∨ x = o + 4 ∨ x = o + 8 ∨ x = o + 12 := by simpa [lanesAt] using hx
    omega

/-- A read of unimplemented offsets returns zero, where the initiator holds no snapshot of a counter there. -/
theorem regLoad_unimplemented (ha : acceptsReg o sz = true) (hr : s.mayRead i = true) (h : ∀ x ∈ lanesAt o sz, s.readReg b x = none)
    (hs : ∀ x ∈ s.snaps, ¬ (x.init = i ∧ x.blk = b ∧ x.off + 4 = o)) : (s.regLoad i b o sz).2 = (0, false) := by
  have hsnap : s.readSnap i b o = 0 := by
    have hf : s.snaps.find? (fun x => x.init == i && x.blk == b && x.off + 4 == o) = none := by
      rw [List.find?_eq_none]
      intro x hx
      simpa [and_assoc] using hs x hx
    simp [State.readSnap, hf, h o (mem_lanesAt_self o sz)]
  unfold State.regLoad
  simp only [ha, hr, Bool.not_true, Bool.or_self, Bool.false_eq_true, if_false, hsnap]
  split
  · rename_i hsz
    rw [hsz] at h ⊢
    simp only [lanesAt, if_true, List.forall_mem_cons, List.not_mem_nil] at h
    obtain ⟨h0, h4, h8, hc, -⟩ := h
    simp [lanesAt, List.zipIdx, place, h0, h4, h8, hc]
  · rfl

/-- A store to unimplemented offsets sets RSVD_ACC and is an access of the block, nothing else. -/
theorem regStore_unimplemented (ha : acceptsReg o sz = true) (d : Native) (hw : s.mayWrite i b o sz = true)
    (h : ∀ x ∈ lanesAt o sz, s.readReg b x = none) :
    s.regStore i b o sz d 0 = ((s.touchBlk i b).onHdr b (fun h => { h with rsvdAcc := true }), false) := by
  have ho := mem_lanesAt_self o sz
  obtain ⟨hp, -, hwide, -, -⟩ := readReg_eq_none (h o ho)
  have hplain : ∀ x ∈ lanesAt o sz, Plain b x := fun x hx => Plain.of_readReg_none (lanesAt_aligned ha hx) (h x hx)
  have hmark : (s.touchBlk i b).noteReserved b o sz = (s.touchBlk i b).onHdr b (fun h => { h with rsvdAcc := true }) :=
    noteReserved_of_none ⟨o, ho, h o ho⟩
  unfold State.regStore
  rw [ha, hw, Bool.and_self, if_pos rfl, regStoreOk_plain hp hplain, hmark, State.writeWide, hwide]
  rw [if_neg (by decide), each_eq_self]
  intro x hx
  have hx := List.fst_mem_of_mem_zipIdx hx
  exact writeReg_of_readReg_none (lanesAt_aligned ha hx) (h x.1 hx)

end

/-- Settles O26. A refused access stops at the width check of its load or store. An unimplemented offset is a plain register
that no write changes, so a store there is RSVD_ACC and the access itself. -/
theorem registerSpaceRules : Obligations.RegisterSpaceRules := by
  refine ⟨⟨?_, ?_⟩, ?_⟩
  · intro i addr b o sz d hw p s h hn
    have ha : acceptsReg o sz = false := by rw [← Bool.not_eq_true, acceptsReg_iff]; exact hn
    exact ⟨exec_registerWrite_refused h ha, regLoad_refused ha, regStore_refused ha⟩
  · intro c r rs1 imm b o s hi ht a hr
    have load : ∀ (j : Instr) (k : LoadKind), acceptsReg o k.size = false →
        s.scalarLoad c j k r rs1 imm = (s.fetched c).excLoad c a := fun j k ha =>
      (scalarLoad_go hi ht j k r).trans (coreLoad_periph_refused hr ha)
    have store : ∀ (j : Instr) (sz : Size), acceptsReg o sz = false →
        s.scalarStore c j sz r rs1 imm = (s.fetched c).excStore c a := fun j sz ha =>
      (scalarStore_go hi ht j sz r).trans (coreStore_periph_refused hr ha)
    refine ⟨fun ho => ?_, ?_, ?_, ?_, ?_, fun ho he => ?_⟩
    · have ha : acceptsReg o .b4 = false := by rw [← Bool.not_eq_true, acceptsReg_iff]; simpa using ho
      exact ⟨congrArg Host.Outcome.next (load _ .lw ha), congrArg Host.Outcome.next (store _ .b4 ha)⟩
    · exact congrArg Host.Outcome.next (load _ .lh rfl)
    · exact congrArg Host.Outcome.next (load _ .lb rfl)
    · exact congrArg Host.Outcome.next (store _ .b2 rfl)
    · exact congrArg Host.Outcome.next (store _ .b1 rfl)
    · have ha : acceptsReg o .b4 = true := (acceptsReg_iff o .b4).mpr (.inl ⟨rfl, ho⟩)
      have he : (s.fetched c).core[c].egress = [] := by rw [fetched_core]; exact he
      refine ⟨fun hc => congrArg Host.Outcome.next ?_, fun hc => congrArg Host.Outcome.next ?_⟩
      · refine (scalarLoad_go hi ht _ .lw r).trans ((coreLoad_periph_steward hr hc ha he).trans ?_)
        rw [lw_extend]
        rfl
      · exact (scalarLoad_go hi ht _ .lw r).trans (coreLoad_periph_voice hr hc ha he)
  · intro i b o sz d s ha ho
    refine ⟨fun hr hx => ?_, fun hx hs => ⟨fun hr => ?_, fun hw => ?_⟩⟩
    · rw [(regLoad_keeps ha hr).1]
      exact noteReserved_rsvdAcc (s := s.touchBlk i b) hx
    · obtain ⟨hh, hm, hc⟩ := regLoad_keeps (b := b) ha hr
      refine ⟨regLoad_unimplemented ha hr hx hs, ?_, hc, hm⟩
      rw [hh]
      exact noteReserved_rsvdAcc (s := s.touchBlk i b) ⟨o, mem_lanesAt_self o sz, hx o (mem_lanesAt_self o sz)⟩
    · rw [regStore_unimplemented ha d hw hx]
      refine ⟨rfl, ?_, rfl, rfl, rfl, rfl, rfl, rfl, rfl, rfl, rfl, rfl, rfl, rfl, rfl, rfl, rfl⟩
      exact congrArg Hdr.rsvdAcc (upd_same ..)

end Sys2Proof.Machine
end

section
/-!
PROOFS. Counters: what a write or an event leaves in the counter, in CNT_OVF and everywhere else (R9, R15). O27.
-/
namespace Sys2Proof.Machine

/-! ## 32-bit counters -/

theorem cntGet_blkTrk (s : State) (t : TrkId) (n : Nat) : s.cntGet (blkTrk t) n = getN s.trk[t].cnt n 0 := by
  simp only [State.cntGet, trkOfBlk_blkTrk]

theorem cntPut_blkTrk (s : State) (t : TrkId) (n : Nat) (v : Word) :
    s.cntPut (blkTrk t) n v = s.onTrk t (fun k => { k with cnt := updN k.cnt n (fun _ => v) }) := by
  simp only [State.cntPut, trkOfBlk_blkTrk]

theorem cntGet_onTrk (s : State) {b : BlkId} {t : TrkId} (f : Trunk → Trunk) (n : Nat) (h : b ≠ blkTrk t) :
    (s.onTrk t f).cntGet b n = s.cntGet b n := by
  cases ht : trkOfBlk b with
  | none => unfold State.cntGet; rw [ht]; rfl
  | some u =>
    obtain rfl := trkOfBlk_eq_some ht
    rw [cntGet_blkTrk, cntGet_blkTrk, State.onTrk_other s t u f (fun e => h (by rw [e]))]

theorem counterAt_fhub {o n : Nat} (h : counterAt blkFhub o = some n) : n = 0 := by
  have h : (if 0x2C ≤ o ∧ o < 0x2C + 4 * 1 ∧ o % 4 = 0 then some ((o - 0x2C) / 4) else none) = some n := h
  split at h
  · cases h; omega
  · cases h

/-- A write of a counter, read back in its own block: that counter has the value, the others keep theirs. -/
theorem cntGet_cntPut_block {s : State} {b : BlkId} {o o' n n' : Nat} {v : Word} (h : counterAt b o = some n)
    (h' : counterAt b o' = some n') : (s.cntPut b n v).cntGet b n' = if n = n' then v else s.cntGet b n' := by
  rcases counterAt_cases h with ⟨t, rfl, -, hn⟩ | ⟨r, hr, rfl, -, hn⟩
  · rw [cntPut_blkTrk, cntGet_blkTrk, cntGet_blkTrk, State.onTrk_same]
    exact getN_updN _ _ _ _ _ hn
  · rcases List.mem_cons.mp hr with rfl | hr
    · -- the Fault Hub has one counter
      have hn' := counterAt_fhub h'
      have hn := counterAt_fhub h
      exact (if_pos (hn.trans hn'.symm)).symm
    · repeat
        rcases List.mem_cons.mp hr with rfl | hr
        · exact getN_updN _ _ _ _ _ hn
      cases hr

/-- Another block's counters keep their values: no two blocks share a part of the state that holds a counter. -/
theorem cntGet_cntPut_other {s : State} {b b' : BlkId} {o o' n n' : Nat} {v : Word} (h : counterAt b o = some n)
    (h' : counterAt b' o' = some n') (hb : b' ≠ b) : (s.cntPut b n v).cntGet b' n' = s.cntGet b' n' := by
  rcases counterAt_cases h with ⟨t, rfl, -⟩ | ⟨r, hr, rfl, -⟩
  · rw [cntPut_blkTrk]
    exact cntGet_onTrk s _ n' hb
  · rcases counterAt_cases h' with ⟨u, rfl, -⟩ | ⟨q, hq, rfl, -⟩
    · rw [cntGet_blkTrk, cntGet_blkTrk]
      repeat
        rcases List.mem_cons.mp hr with rfl | hr
        · rfl
      cases hr
    · repeat
        rcases List.mem_cons.mp hr with rfl | hr
        · repeat
            rcases List.mem_cons.mp hq with rfl | hq
            · first | rfl | exact absurd rfl hb
          cases hq
      cases hr

theorem cntPut_keeps {s : State} {b : BlkId} {o n : Nat} {v : Word} (h : counterAt b o = some n) :
    (s.cntPut b n v).hdr = s.hdr ∧ (s.cntPut b n v).mem = s.mem ∧ (s.cntPut b n v).core = s.core := by
  rcases counterAt_cases h with ⟨t, rfl, -⟩ | ⟨r, hr, rfl, -⟩
  · rw [cntPut_blkTrk]; exact ⟨rfl, rfl, rfl⟩
  · repeat
      rcases List.mem_cons.mp hr with rfl | hr
      · exact ⟨rfl, rfl, rfl⟩
    cases hr

theorem wraps_one (w : Word) : wraps w 1 = (w == BitVec.allOnes 32) := by
  rw [Bool.eq_iff_iff]
  simp only [wraps, decide_eq_true_eq, beq_iff_eq, ← BitVec.toNat_inj, BitVec.toNat_allOnes]
  omega

theorem ovf_keeps (s : State) (b : BlkId) (k : Nat) (p : Bool) : (s.ovf b k p).mem = s.mem ∧ (s.ovf b k p).core = s.core ∧
    (∀ b', b' ≠ b → (s.ovf b k p).hdr[b'] = s.hdr[b']) ∧ ∀ b' n, (s.ovf b k p).cntGet b' n = s.cntGet b' n := by
  cases p
  · exact ⟨rfl, rfl, fun _ _ => rfl, fun _ _ => rfl⟩
  · exact ⟨rfl, rfl, fun b' hb => upd_other _ b b' _ hb.symm, fun _ _ => rfl⟩

/-- CNT_OVF after a count: the counter's own bit is set by a wrap, no other changes. -/
theorem ovf_cntOvf (s : State) (b : BlkId) (k j : Nat) (p : Bool) (hj : j < 32) :
    (s.ovf b k p).hdr[b].cntOvf.getLsbD j = (s.hdr[b].cntOvf.getLsbD j || (decide (j = k) && p)) := by
  cases p
  · simp [State.ovf]
  · simp only [State.ovf, State.when_true, State.onHdr_hdr, upd_same, oneHot]
    simp [hj, eq_comm]

/-! ## A store to a counter -/

theorem counterRows_plain : ∀ r ∈ counterRows, ∀ n, n < r.2.2 → commitReg r.1 (r.2.1 + 4 * n) = false ∧ 0x20 ≤ r.2.1 + 4 * n ∧
    r.2.1 + 4 * n ∉ ownWritten r.1 := by
  decide

/-- A 32-bit counter is a plain register. -/
theorem Plain.of_counterAt {b : BlkId} {o n : Nat} (h : counterAt b o = some n) : Plain b o := by
  rcases counterAt_cases h with ⟨t, rfl, rfl, hn⟩ | ⟨r, hr, rfl, rfl, hn⟩
  · exact ⟨by simp [commitReg]; omega, by omega, by simp; omega⟩
  · obtain ⟨hc, ho, hw⟩ := counterRows_plain r hr n hn
    exact ⟨hc, ho, hw⟩

theorem mayWrite_steward {s : State} {b : BlkId} (o : Nat) (sz : Size) (hl : b ≠ blkLcyc) (hf : b ≠ blkFuse) :
    s.mayWrite .steward b o sz = true := by
  simp [State.mayWrite, hl, hf]

section
variable {s : State} {addr : Word} {b : BlkId} {o : Nat} {sz : Size}

/-- REGISTER_WRITE by the Steward of plain registers. -/
theorem exec_registerWrite_plain (d : Native) (h : periphOf addr.toNat = some (b, o)) (hp : s.blkPopulated b) (hl : b ≠ blkLcyc)
    (hf : b ≠ blkFuse) (ha : acceptsReg o sz = true) (hx : ∀ x ∈ lanesAt o sz, Plain b x) :
    exec (.registerWrite .steward addr sz d false 0) s =
      .next (((((s.touchBlk .steward b).noteReserved b o sz).writeWide b o sz d).each (lanesAt o sz).zipIdx
        (fun x s => s.writeReg b x.1 (laneData sz d x.2) 0)).answer 0 false false) := by
  rw [exec_registerWrite h, State.regStore, ha, mayWrite_steward o sz hl hf, Bool.and_self, if_pos rfl, regStoreOk_plain hp hx]

end

theorem writeReg_counter {s : State} {b : BlkId} {o n : Nat} {w hw : Word} (h : counterAt b o = some n) :
    s.writeReg b o w hw = s.cntPut b n w := by
  have hx := Plain.of_counterAt h
  have ho := hx.past
  unfold State.writeReg
  simp only [hx.commit, Bool.false_and, State.when_false, h]
  exact if_neg (by omega)

theorem counterAt_aligned {b : BlkId} {o n : Nat} (h : counterAt b o = some n) : o % 4 = 0 := by
  rcases counterAt_cases h with ⟨t, -, rfl, -⟩ | ⟨r, hr, -, rfl, -⟩
  · omega
  · have hrows : ∀ r ∈ counterRows, r.2.1 % 4 = 0 := by decide
    have := hrows r hr
    omega

theorem counterAt_not_wide {b : BlkId} {o n : Nat} (h : counterAt b o = some n) : isWide b o = false := by
  rw [← Bool.not_eq_true]
  intro hw
  rcases isWide_cases hw with ⟨t, rfl, rfl | rfl⟩ | ⟨rfl, rfl | rfl⟩ | ⟨rfl, rfl⟩
  · simp [counterAt] at h
  · simp [counterAt] at h
  all_goals cases h

theorem cntGet_noteReserved (s : State) (b : BlkId) (o : Nat) (sz : Size) (b' : BlkId) (n : Nat) :
    (s.noteReserved b o sz).cntGet b' n = s.cntGet b' n := by
  unfold State.noteReserved State.when; split <;> rfl

/-- REGISTER_WRITE of a 32-bit counter by the Steward. -/
theorem registerWrite_counter {s : State} {addr : Word} {b : BlkId} {o n : Nat} (d : Native) (h : periphOf addr.toNat = some (b, o))
    (hc : counterAt b o = some n) (hp : s.blkPopulated b) : exec (.registerWrite .steward addr .b4 d false 0) s =
      .next ((((s.touchBlk .steward b).noteReserved b o .b4).cntPut b n (field d 0 32)).answer 0 false false) := by
  have hl : b ≠ blkLcyc := by rintro rfl; cases hc
  have hf : b ≠ blkFuse := by rintro rfl; cases hc
  have ha : acceptsReg o .b4 = true := (acceptsReg_iff o .b4).mpr (.inl ⟨rfl, counterAt_aligned hc⟩)
  have hx : ∀ x ∈ lanesAt o .b4, Plain b x := by
    intro x hx
    obtain rfl : x = o := by simpa [lanesAt] using hx
    exact .of_counterAt hc
  rw [exec_registerWrite_plain d h hp hl hf ha hx, State.writeWide, counterAt_not_wide hc, if_neg (by decide)]
  exact congrArg (fun t : State => Host.Outcome.next (t.answer 0 false false)) (writeReg_counter hc)

/-! ## 64-bit counters -/

theorem wide_lanes_plain : ∀ b : BlkId, ∀ o ∈ [0x40, 0x50], isWide b o = true → ∀ x ∈ lanesAt o .b16,
    commitReg b x = false ∧ 0x20 ≤ x ∧ x ∉ ownWritten b ∧ counterAt b x = none := by
  decide

section
variable {s : State} {b : BlkId} {o : Nat} (h : isWide b o = true)
include h

theorem wide_aligned : o % 16 = 0 := by
  rcases isWide_cases h with ⟨t, -, rfl | rfl⟩ | ⟨-, rfl | rfl⟩ | ⟨-, rfl⟩ <;> rfl

theorem not_wide_high : isWide b (o + 4) = false := by
  rw [← Bool.not_eq_true]
  intro h'
  have := wide_aligned h
  have := wide_aligned h'
  omega

theorem wideGet_widePut (v : BitVec 64) : (s.widePut b o v).wideGet b o = v := by
  rcases isWide_cases h with ⟨t, rfl, rfl | rfl⟩ | ⟨rfl, rfl | rfl⟩ | ⟨rfl, rfl⟩
  · simp [State.widePut, State.wideGet]
  · simp [State.widePut, State.wideGet]
  all_goals rfl

/-- The native word of a 64-bit counter holds no other counter and no command. -/
theorem Plain.of_wide {x : Nat} (hx : x ∈ lanesAt o .b16) : Plain b x ∧ counterAt b x = none := by
  have ho : o ∈ [0x40, 0x50] := by
    rcases isWide_cases h with ⟨t, -, rfl | rfl⟩ | ⟨-, rfl | rfl⟩ | ⟨-, rfl⟩ <;> decide
  obtain ⟨hc, hp, hw, hn⟩ := wide_lanes_plain b o ho h x hx
  exact ⟨⟨hc, hp, hw⟩, hn⟩

/-- A store within the native word of a 64-bit counter is ignored but for the counter's own halves (R9). -/
theorem registerWrite_wide {addr : Word} {o' : Nat} {sz : Size} (d : Native) (ha : periphOf addr.toNat = some (b, o'))
    (hp : s.blkPopulated b) (hs : acceptsReg o' sz = true) (hx : ∀ x ∈ lanesAt o' sz, x ∈ lanesAt o .b16) :
    exec (.registerWrite .steward addr sz d false 0) s =
      .next ((((s.touchBlk .steward b).noteReserved b o' sz).writeWide b o' sz d).answer 0 false false) := by
  have hl : b ≠ blkLcyc := by rintro rfl; cases h
  have hf : b ≠ blkFuse := by rintro rfl; cases h
  rw [exec_registerWrite_plain d ha hp hl hf hs (fun x hm => (Plain.of_wide h (hx x hm)).1), each_eq_self]
  intro x hm
  obtain ⟨hplain, hn⟩ := Plain.of_wide h (hx x.1 (List.fst_mem_of_mem_zipIdx hm))
  exact writeReg_eq_self hplain.commit hplain.past hn hplain.own

theorem acceptsReg_wide : acceptsReg o .b4 = true ∧ acceptsReg (o + 4) .b4 = true ∧ acceptsReg o .b16 = true := by
  have := wide_aligned h
  simp [acceptsReg_iff]
  omega

end

theorem wideGet_noteReserved (s : State) (b b' : BlkId) (o o' : Nat) (sz : Size) :
    (s.noteReserved b o sz).wideGet b' o' = s.wideGet b' o' := by
  unfold State.noteReserved State.when; split <;> rfl

/-- Settles O27. A 32-bit counter and the native word of a 64-bit counter are plain registers, so a store there reaches the
counter alone; the rest is what cntPut, widePut and ovf read back as. -/
theorem counterResults : Obligations.CounterResults := by
  refine ⟨⟨?_, ?_⟩, ?_⟩
  · intro addr b o n d s ha hc hp
    refine ⟨_, registerWrite_counter d ha hc hp, ?_⟩
    obtain ⟨-, hm, hk⟩ := cntPut_keeps (s := (s.touchBlk .steward b).noteReserved b o .b4) (v := field d 0 32) hc
    refine ⟨(cntGet_cntPut_block hc hc).trans (if_pos rfl), rfl, hm.trans (by simp), hk.trans (by simp), ?_⟩
    intro b' o' n' hc' hne
    refine Eq.trans ?_ (cntGet_noteReserved (s.touchBlk .steward b) b o .b4 b' n')
    by_cases hb : b' = b
    · subst hb
      have hn : n ≠ n' := fun e => hne.elim (fun h => h rfl) (fun h => h e.symm)
      exact (cntGet_cntPut_block hc hc').trans (if_neg hn)
    · exact cntGet_cntPut_other hc hc' hb
  · intro b o n s hc
    obtain ⟨hh, hm, hk⟩ := cntPut_keeps (s := s) (v := s.cntGet b n + 1) hc
    have hovf := ovf_keeps (s.cntPut b n (s.cntGet b n + 1)) b (firstOvf b + n) (wraps (s.cntGet b n) 1)
    obtain ⟨hm', hk', hh', hg'⟩ := hovf
    refine ⟨(hg' b n).trans ((cntGet_cntPut_block hc hc).trans (if_pos rfl)), fun j hj => ?_, fun b' hb => ?_, hm'.trans hm, hk'.trans hk⟩
    · refine (ovf_cntOvf _ b _ j _ hj).trans ?_
      rw [hh, wraps_one]
    · exact (hh' b' hb).trans (by rw [hh])
  · intro addr b o d s hw hp
    obtain ⟨hlow, hhigh, hboth⟩ := acceptsReg_wide hw
    refine ⟨fun ha => ⟨_, registerWrite_wide hw d ha hp hlow (by simp [lanesAt]), ?_⟩,
      fun ha => ⟨_, registerWrite_wide hw d ha hp hhigh (by simp [lanesAt]), ?_⟩,
      fun ha => ⟨_, registerWrite_wide hw d ha hp hboth (fun x hx => hx), ?_⟩⟩
    · rw [State.writeWide, if_pos hw]
      exact wideGet_widePut hw _
    · rw [State.writeWide, not_wide_high hw]
      exact wideGet_noteReserved ..
    · rw [State.writeWide, if_pos hw]
      exact wideGet_widePut hw _

end Sys2Proof.Machine
end

section
/-!
PROOFS. Counter snapshots and a read in the cycle of a wrap (R8, R16). O28.
-/
namespace Sys2Proof.Machine

/-! ## Snapshots (R8, R16) -/

section
variable {s : State} {b : BlkId} {o : Nat} (h : isWide b o = true) (hp : s.blkPopulated b)
include h hp

theorem readReg_wide_low : s.readReg b o = some (half (s.wideGet b o) false) := by
  have ho : ¬ o < 0x20 := by have := (Plain.of_wide h (mem_lanesAt_self o .b16)).1.past; omega
  unfold State.readReg
  rw [if_neg, if_neg ho, if_pos h]
  cases ht : trkOfBlk b with
  | none => simp
  | some t => simp [hp t ht]

theorem readReg_wide_high : s.readReg b (o + 4) = some (half (s.wideGet b o) true) := by
  have ho : ¬ o + 4 < 0x20 := by have := (Plain.of_wide h (mem_lanesAt_self o .b16)).1.past; omega
  unfold State.readReg
  rw [if_neg, if_neg ho, if_neg (by simp [not_wide_high h]), if_pos ⟨by omega, h⟩]
  · rfl
  cases ht : trkOfBlk b with
  | none => simp
  | some t => simp [hp t ht]

end

theorem exec_counterSnapshotRead {i : Initiator} {addr : Word} {w : Bool} {b : BlkId} {o : Nat} {s : State}
    (h : periphOf addr.toNat = some (b, o)) : exec (.counterSnapshotRead i addr w) s =
      .next (((s.regLoad i b o .b4).1.when (w && !(s.regLoad i b o .b4).2.2) (·.hwReg b o 1)).answer (s.regLoad i b o .b4).2.1 false
        (s.regLoad i b o .b4).2.2) := by
  show execCounterSnapshotRead i addr w s = _
  simp only [execCounterSnapshotRead, h]

theorem regLoad_b4_data {s : State} {i : Initiator} {b : BlkId} {o : Nat} (ha : acceptsReg o .b4 = true) (hr : s.mayRead i = true) :
    (s.regLoad i b o .b4).2 = ((s.readSnap i b o).setWidth 128, false) := by
  simp [State.regLoad, ha, hr]

theorem widePut_snaps {b : BlkId} {o : Nat} (h : isWide b o = true) (s : State) (v : BitVec 64) : (s.widePut b o v).snaps = s.snaps := by
  rcases isWide_cases h with ⟨t, rfl, -⟩ | ⟨rfl, -⟩ | ⟨rfl, -⟩
  · simp only [State.widePut, trkOfBlk_blkTrk, State.onTrk_snaps]
  all_goals rfl

theorem not_undescribed_wide {b : BlkId} {o : Nat} (h : isWide b o = true) : undescribed b o = false := by
  rcases isWide_cases h with ⟨t, rfl, rfl | rfl⟩ | ⟨rfl, rfl | rfl⟩ | ⟨rfl, rfl⟩ <;> clear h
  · revert t; decide
  · revert t; decide
  all_goals rfl

section
variable {s : State} {b : BlkId} {o : Nat} (h : isWide b o = true) (hp : s.blkPopulated b)
include h hp

/-- A 32-bit read of a counter's low half: the high half is kept for the initiator (R8). -/
theorem regLoad_wide_low {i : Initiator} (hr : s.mayRead i = true) : (s.regLoad i b o .b4).1 =
    { s.touchBlk i b with snaps := (s.touchBlk i b).snaps ++ [⟨i, b, o, half (s.wideGet b o) true⟩] } := by
  have hres : (s.touchBlk i b).noteReserved b o .b4 = s.touchBlk i b := by
    simp [State.noteReserved, lanesAt, readReg_wide_low h hp]
  unfold State.regLoad
  simp [(acceptsReg_wide h).1, hr, hres, not_undescribed_wide h, snapAt, h, readReg_wide_high h hp]

theorem readSnap_wide_low {i : Initiator} (hs : ∀ x ∈ s.snaps, x.off + 4 ≠ o) : s.readSnap i b o = half (s.wideGet b o) false := by
  have hf : s.snaps.find? (fun x => x.init == i && x.blk == b && x.off + 4 == o) = none := by
    rw [List.find?_eq_none]
    intro x hx
    simp [hs x hx]
  simp [State.readSnap, hf, readReg_wide_low h hp]

end

/-- The snapshot just taken serves the initiator's next read of the high half. -/
theorem readSnap_touched {s t : State} {i : Initiator} {b : BlkId} {o : Nat} {w : Word}
    (hs : t.snaps = (s.touchBlk i b).snaps ++ [⟨i, b, o, w⟩]) : t.readSnap i b (o + 4) = w := by
  have hf : (s.touchBlk i b).snaps.find? (fun x => x.init == i && x.blk == b && x.off == o) = none := by
    rw [List.find?_eq_none]
    intro x hx hc
    have hout : (!(x.init == i && x.blk == b)) = true := (List.mem_filter.mp hx).2
    simp_all
  simp [State.readSnap, hs, List.find?_append, hf]

theorem wideGet_ovf (s : State) (b b' : BlkId) (k o : Nat) (p : Bool) : (s.ovf b k p).wideGet b' o = s.wideGet b' o := by
  cases p <;> rfl

/-- CNT_OVF is not zero after a wrap. -/
theorem ovf_true_ne_zero (s : State) (b : BlkId) {k : Nat} (hk : k < 32) : (s.ovf b k true).hdr[b].cntOvf ≠ 0 := by
  intro hz
  have hbit := ovf_cntOvf s b k k true hk
  rw [hz] at hbit
  simp at hbit

/-- A count beyond all ones: the counter is zero and CNT_OVF is not (R15). -/
theorem wideEvent_wrap {s : State} {b : BlkId} {o : Nat} (h : isWide b o = true) (hall : s.wideGet b o = BitVec.allOnes 64) :
    (s.wideEvent b o).wideGet b o = 0 ∧ (s.wideEvent b o).hdr[b].cntOvf ≠ 0 := by
  unfold State.wideEvent
  rw [wideGet_ovf, wideGet_widePut h, hall, beq_self_eq_true]
  refine ⟨by simp, ovf_true_ne_zero _ b ?_⟩
  split
  · decide
  · split <;> decide

theorem hwReg_wide {s : State} {b : BlkId} {o : Nat} {w : Word} (h : isWide b o = true) (hw : w ≠ 0) :
    s.hwReg b o w = s.wideEvent b o := by
  rw [State.hwReg, if_neg hw, if_pos h]

/-- Settles O28. The read of the low half leaves exactly one snapshot of the Steward's at the block, and a wrap of the same cycle
takes effect after the read. -/
theorem snapshotReads : Obligations.SnapshotReads := by
  intro addr addr2 b o s h ha ha2 hp hs
  have hr : s.mayRead .steward = true := rfl
  obtain ⟨hlow, hhigh, -⟩ := acceptsReg_wide h
  have hdata := regLoad_b4_data (b := b) hlow hr
  rw [readSnap_wide_low h hp hs] at hdata
  have hst := regLoad_wide_low h hp hr
  refine ⟨⟨_, exec_counterSnapshotRead ha, ?_⟩, fun hall => ⟨_, exec_counterSnapshotRead ha, ?_⟩⟩
  · rw [hdata, hst]
    refine ⟨rfl, rfl, rfl, rfl, fun n => ⟨_, exec_counterSnapshotRead ha2, ?_⟩⟩
    rw [regLoad_b4_data hhigh rfl]
    refine congrArg (BitVec.setWidth 128) (readSnap_touched (s := s) ?_)
    exact widePut_snaps h _ n
  · have hlow : half (BitVec.allOnes 64) false = BitVec.allOnes 32 := by decide
    have hkept : (s.regLoad .steward b o .b4).1.wideGet b o = BitVec.allOnes 64 := by rw [hst]; exact hall
    have hwrap := wideEvent_wrap h hkept
    rw [← hwReg_wide h (w := 1) (by decide)] at hwrap
    rw [hdata, hall, hlow]
    exact ⟨rfl, hwrap⟩

end Sys2Proof.Machine
end

section
/-!
PROOFS. TABLE_SYNC: what the hardware's reads of Chord leave alone, the reload of a block's tables, and the command (R14, R19).
O30.
-/
namespace Sys2Proof.Machine

/-! ## What hardware reads of Chord leave -/

/-- What a hardware read of Chord leaves alone: the trunk engines and every block's synchronization. -/
structure KeepsTables (s t : State) : Prop where
  trk : t.trk = s.trk
  sync : ∀ b : BlkId, t.hdr[b].sync = s.hdr[b].sync
  held : ∀ b : BlkId, t.hdr[b].syncHeld = s.hdr[b].syncHeld

theorem KeepsTables.refl (s : State) : KeepsTables s s := ⟨rfl, fun _ => rfl, fun _ => rfl⟩

theorem KeepsTables.trans {s t u : State} (h : KeepsTables s t) (k : KeepsTables t u) : KeepsTables s u :=
  ⟨k.trk.trans h.trk, fun b => (k.sync b).trans (h.sync b), fun b => (k.held b).trans (h.held b)⟩

/-- An update of no header keeps them all. -/
theorem KeepsTables.of_hdr {s t : State} (ht : t.trk = s.trk) (hh : t.hdr = s.hdr) : KeepsTables s t :=
  ⟨ht, fun b => by rw [hh], fun b => by rw [hh]⟩

theorem when_keepsTables {s : State} {p : Bool} {f : State → State} (hf : ∀ t, KeepsTables t (f t)) : KeepsTables s (s.when p f) := by
  cases p
  · exact .refl s
  · exact hf s

theorem each_keepsTables {α : Type} (xs : List α) {f : α → State → State} (hf : ∀ x t, KeepsTables t (f x t)) (s : State) :
    KeepsTables s (s.each xs f) := by
  induction xs generalizing s with
  | nil => exact .refl s
  | cons x xs ih => exact (hf x s).trans (ih (f x s))

theorem ovf_keepsTables (s : State) (b : BlkId) (k : Nat) (p : Bool) : KeepsTables s (s.ovf b k p) := by
  refine when_keepsTables fun t => ⟨rfl, fun b' => ?_, fun b' => ?_⟩ <;>
  · rw [State.onHdr_hdr, upd_at]
    split <;> rfl

theorem onMemc_keepsTables (s : State) (f : Memc → Memc) : KeepsTables s (s.onMemc f) := .of_hdr rfl rfl

theorem onChord_keepsTables (s : State) (f : Chord → Chord) : KeepsTables s (s.onChord f) := .of_hdr rfl rfl

theorem onSlice_keepsTables (s : State) (i : SliceId) (f : Slice → Slice) : KeepsTables s (s.onSlice i f) := .of_hdr rfl rfl

theorem detect_keepsTables (s : State) (f : FaultSource) (n : Nat) (w : Word) : KeepsTables s (s.detect f n w) := .of_hdr rfl rfl

theorem cntMemc_keepsTables (s : State) (i k : Nat) : KeepsTables s (s.cntMemc i k) :=
  (onMemc_keepsTables s _).trans (ovf_keepsTables _ _ _ _)

theorem offerCe_keepsTables (s : State) (e : Native) : KeepsTables s (s.offerCe e) := by
  unfold State.offerCe
  split
  · exact .refl s
  · exact onMemc_keepsTables s _

theorem account_keepsTables (s : State) (m : Byte) (a : BitVec 24) (n : Nat) (y : BitVec 9) (i : Init) :
    KeepsTables s (s.account m a n y i) := by
  unfold State.account
  split
  · exact .refl s
  · exact ((cntMemc_keepsTables s 0 1).trans (offerCe_keepsTables _ _)).trans (detect_keepsTables _ _ _ _)
  · exact ((cntMemc_keepsTables s 0 1).trans (offerCe_keepsTables _ _)).trans (detect_keepsTables _ _ _ _)
  · exact ((cntMemc_keepsTables s 2 1).trans (onMemc_keepsTables _ _)).trans (detect_keepsTables _ _ _ _)
  · exact cntMemc_keepsTables s 3 1
  · exact ((cntMemc_keepsTables s 1 1).trans (onMemc_keepsTables _ _)).trans (detect_keepsTables _ _ _ _)

theorem setCell_keepsTables (s : State) (l : Loc) (c : Cell) : KeepsTables s (s.setCell l c) := by
  have arr : KeepsTables s (s.setArrayCell l c) := by
    unfold State.setArrayCell
    dsimp only
    split <;> exact .of_hdr rfl rfl
  unfold State.setCell
  split
  · split
    · exact .of_hdr rfl rfl
    · exact arr
  · exact arr

theorem storeWord_keepsTables (s : State) (l : Loc) (d : Native) (p : Bool) : KeepsTables s (s.storeWord l d p) := by
  unfold State.storeWord
  dsimp only
  split
  · exact (setCell_keepsTables s l _).trans (.of_hdr rfl rfl)
  · exact setCell_keepsTables s l _

theorem askGrant_keepsTables (s : State) (r : Fin 29) : KeepsTables s (s.askGrant r) := by
  unfold State.askGrant
  split
  · exact .refl s
  · exact .of_hdr rfl rfl

theorem stewIrq_keepsTables (s : State) (b : BlkId) : KeepsTables s (s.stewIrq b) := by
  have pend : KeepsTables s (s.onCore stw (fun k => k.pend (16 + b.val))) := .of_hdr rfl rfl
  unfold State.stewIrq State.wakeCheck
  dsimp only
  split
  · exact pend.trans (askGrant_keepsTables _ _)
  · exact pend

theorem cntChord_keepsTables (s : State) (c : ChordCnt) : KeepsTables s (s.cntChord c) :=
  (onChord_keepsTables s _).trans (ovf_keepsTables _ _ _ _)

theorem evChord_keepsTables (s : State) (e : ChordEv) : KeepsTables s (s.evChord e) :=
  (onChord_keepsTables s _).trans (when_keepsTables fun t => stewIrq_keepsTables t _)

theorem writeLine_keepsTables (s : State) (l : Line) (d : BitVec 512) (p m : BitVec 4) : KeepsTables s (s.writeLine l d p m) :=
  each_keepsTables _ (fun _ _ => when_keepsTables fun _ => storeWord_keepsTables _ _ _ _) s

theorem loseLine_keepsTables (s : State) (l : Line) (c : Cl) : KeepsTables s (s.loseLine l c) := by
  unfold State.loseLine
  refine .trans ?_ (detect_keepsTables _ _ _ _)
  refine .trans ?_ (evChord_keepsTables _ _)
  refine .trans ?_ (onChord_keepsTables _ _)
  refine .trans ?_ (cntChord_keepsTables _ _)
  exact each_keepsTables _ (fun _ t => storeWord_keepsTables t _ _ _) s

theorem writeBack_keepsTables (s : State) (c : Cl) (x : L1Line) : KeepsTables s (s.writeBack c x) :=
  (each_keepsTables _ (fun _ _ => account_keepsTables _ _ _ _ _ _) s).trans (writeLine_keepsTables _ _ _ _ _)

theorem shareProbe_keepsTables (s : State) (c : Cl) (l : Line) : KeepsTables s (s.shareProbe c l) := by
  unfold State.shareProbe
  split
  · exact .refl s
  · split
    · refine when_keepsTables fun t => ?_
      exact ((loseLine_keepsTables t l c).trans (onSlice_keepsTables _ _ _)).trans (onChord_keepsTables _ _)
    · split
      · exact ((writeBack_keepsTables s c _).trans (onChord_keepsTables _ _)).trans (onSlice_keepsTables _ _ _)
      · exact (onChord_keepsTables s _).trans (onSlice_keepsTables _ _ _)
      · exact ((writeBack_keepsTables s c _).trans (onChord_keepsTables _ _)).trans (onSlice_keepsTables _ _ _)
      · exact .refl s

theorem shareLine_keepsTables (s : State) (l : Line) : KeepsTables s (s.shareLine l) := by
  have probes := each_keepsTables clusters (fun c t => shareProbe_keepsTables t c l) s
  unfold State.shareLine
  dsimp only
  split
  · exact probes.trans (writeLine_keepsTables _ _ _ _ _)
  · exact probes

theorem chordReadAt_keepsTables (s : State) (a : Nat) (i : Init) : KeepsTables s (s.chordReadAt a i).1 := by
  unfold State.chordReadAt
  split
  · have wake : ∀ l, KeepsTables s (s.wakeHome l) := fun l => when_keepsTables fun t => askGrant_keepsTables t _
    exact ((wake _).trans (shareLine_keepsTables _ _)).trans (account_keepsTables _ _ _ _ _ _)
  · exact .refl s

/-! ## Reads of Chord where no cache holds a copy -/

/-- The data of two states are the same: the memories, Ostinato's save buffer, and Chord. -/
structure SameArrays (s t : State) : Prop where
  mem : t.mem = s.mem
  osti : t.osti = s.osti
  chord : t.chord = s.chord

theorem SameArrays.refl (s : State) : SameArrays s s := ⟨rfl, rfl, rfl⟩

theorem SameArrays.trans {s t u : State} (h : SameArrays s t) (k : SameArrays t u) : SameArrays s u :=
  ⟨k.mem.trans h.mem, k.osti.trans h.osti, k.chord.trans h.chord⟩

theorem SameArrays.noCopies {s t : State} (h : SameArrays s t) (hn : s.noCopies) : t.noCopies := by
  unfold State.noCopies
  rw [h.chord]
  exact hn

theorem SameArrays.peekWord {s t : State} (h : SameArrays s t) (l : Loc) : t.peekWord l = s.peekWord l := by
  simp only [State.peekWord, State.cell, State.arrayCell, State.dflt, flashByte, h.mem, h.osti]

theorem wakeHome_sameArrays (s : State) (l : Line) : SameArrays s (s.wakeHome l) := by
  refine when_keeps (SameArrays s) _ _ (fun t h => ?_) s (.refl s)
  unfold State.askGrant
  split
  · exact h
  · exact h.trans ⟨rfl, rfl, rfl⟩

theorem shareLine_of_noCopies {s : State} (h : s.noCopies) (l : Line) : s.shareLine l = s := by
  obtain ⟨hl1, hnet⟩ := h
  have hprobe : s.each clusters (fun c t => t.shareProbe c l) = s := each_eq_self fun c _ => by
    simp only [State.shareProbe, State.l1, hl1, List.find?_nil]
  have hflight : s.lineInFlight l = none := by simp only [State.lineInFlight, hnet, List.findSome?_nil]
  simp only [State.shareLine, hprobe, hflight]

theorem chordReadAt_sameArrays {s : State} (h : s.noCopies) (a : Nat) (i : Init) : SameArrays s (s.chordReadAt a i).1 := by
  unfold State.chordReadAt
  split
  · have wake := wakeHome_sameArrays s (BitVec.ofNat 26 ((0x10000000 + 16 * ((a - 0x10000000) / 16)) / 64))
    simp only [State.chordRead]
    rw [shareLine_of_noCopies (wake.noCopies h)]
    have read := account_onlyCounted
    exact wake.trans ⟨(read ..).mem, (read ..).osti, (read ..).chord⟩
  · exact .refl s

theorem SameArrays.routeMem {s t : State} (h : SameArrays s t) (hn : s.noCopies) (htrk : t.trk = s.trk) (k : TrkId) (c : BitVec 5) :
    t.routeMem k c = s.routeMem k c := by
  simp only [State.routeMem, State.chordAt, State.chordNow, htrk, shareLine_of_noCopies hn, shareLine_of_noCopies (h.noCopies hn),
    h.peekWord]

/-! ## The reload of a block's tables -/

/-- What every read of the channel map keeps, the whole of them keeps. -/
theorem mapNow_keeps (P : State → Prop) {s : State} (h : P s) (hread : ∀ t a, P t → P (t.chordReadAt a .other).1) : P s.mapNow.1 := by
  unfold State.mapNow
  refine List.foldlRecOn (motive := fun acc : State × List Native × Bool => P acc.1) _ _ h fun acc hacc i _ => ?_
  have := hread acc.1 (s.unis.chmapBase.toNat * 1024 + 16 * i) hacc
  split <;> simp_all

theorem mapNow_keepsTables (s : State) : KeepsTables s s.mapNow.1 :=
  mapNow_keeps (KeepsTables s) (.refl s) (fun _ _ h => h.trans (chordReadAt_keepsTables _ _ _))

theorem mapNow_sameArrays {s : State} (h : s.noCopies) : SameArrays s s.mapNow.1 :=
  mapNow_keeps (SameArrays s) (.refl s) (fun _ _ hu => hu.trans (chordReadAt_sameArrays (hu.noCopies h) _ _))

/-- The reads of a trunk's 32 route entries. -/
def State.routeReads (s : State) (t : TrkId) : State := s.each (List.range 32) (fun i s => s.noteRoute t (BitVec.ofNat 5 i))

theorem routeReads_keepsTables (s : State) (t : TrkId) : KeepsTables s (s.routeReads t) :=
  each_keepsTables _ (fun _ _ => chordReadAt_keepsTables _ _ _) s

theorem routeReads_sameArrays {s : State} (h : s.noCopies) (t : TrkId) : SameArrays s (s.routeReads t) :=
  each_keeps (SameArrays s) _ _ (fun _ _ hu => hu.trans (chordReadAt_sameArrays (hu.noCopies h) _ _)) s (.refl s)

theorem routeReload_eq (s : State) (t : TrkId) : s.routeReload t = (s.routeReads t).onTrk t (fun k =>
    { k with route := Vector.ofFn (fun i => some ((s.routeReads t).routeMem t (BitVec.ofNat 5 i.val))) }) := rfl

theorem reloadTables_blkTrk (s : State) (t : TrkId) : s.reloadTables (blkTrk t) = s.routeReload t := by
  simp only [State.reloadTables, trkOfBlk_blkTrk]

theorem reloadTables_blkUnis (s : State) : s.reloadTables blkUnis = s.mapNow.1.loadMap s.mapNow.2.1 := by
  have ht : trkOfBlk blkUnis = none := rfl
  simp only [State.reloadTables, ht]

section
variable {t : TrkId} {b : BlkId} (s : State) (hb : b = blkTrk t ∨ b = blkUnis)
include hb

theorem reloadTables_hdr (b' : BlkId) : (s.reloadTables b).hdr[b'].sync = s.hdr[b'].sync ∧
    (s.reloadTables b).hdr[b'].syncHeld = s.hdr[b'].syncHeld := by
  rcases hb with rfl | rfl
  · have h := routeReads_keepsTables s t
    rw [reloadTables_blkTrk, routeReload_eq, State.onTrk_hdr]
    exact ⟨h.sync b', h.held b'⟩
  · have h := mapNow_keepsTables s
    rw [reloadTables_blkUnis, State.loadMap, State.onUnis_hdr]
    exact ⟨h.sync b', h.held b'⟩

theorem reloadTables_mem (h : s.noCopies) : (s.reloadTables b).mem = s.mem := by
  rcases hb with rfl | rfl
  · rw [reloadTables_blkTrk, routeReload_eq, State.onTrk_mem]
    exact (routeReads_sameArrays h t).mem
  · rw [reloadTables_blkUnis, State.loadMap, State.onUnis_mem]
    exact (mapNow_sameArrays h).mem

theorem reloadTables_other_trk (q : TrkId) (hq : b ≠ blkTrk q) : (s.reloadTables b).trk[q] = s.trk[q] := by
  rcases hb with rfl | rfl
  · rw [reloadTables_blkTrk, routeReload_eq, State.onTrk_other _ t q _ (fun e => hq (by rw [e])), (routeReads_keepsTables s t).trk]
  · have h := mapNow_keepsTables s
    rw [reloadTables_blkUnis, State.loadMap, State.onUnis_trk, h.trk]

end

theorem reloadTables_route (s : State) (t : TrkId) (k : Fin 32) : (s.reloadTables (blkTrk t)).trk[t].route[k] =
    some ((s.routeReads t).routeMem t (BitVec.ofNat 5 k.val)) := by
  rw [reloadTables_blkTrk, routeReload_eq, State.onTrk_same]
  simp

/-! ## TABLE_SYNC -/

theorem startSync_keeps (s : State) (b : BlkId) : (s.startSync b).hdr = s.hdr ∧ (s.startSync b).trk = s.trk ∧
    (s.startSync b).unis.chmap = s.unis.chmap ∧ (s.startSync b).mem = s.mem := by
  unfold State.startSync State.when
  split <;> exact ⟨rfl, rfl, rfl, rfl⟩

theorem onHdr_same (s : State) (b : BlkId) (f : Hdr → Hdr) : (s.onHdr b f).hdr[b] = f s.hdr[b] := upd_same _ b f

/-- A block with cached tables, populated where it is a trunk, takes the command. -/
theorem tableSync_taken {t : TrkId} {b : BlkId} {s : State} (hp : s.populated t = true) (hb : b = blkTrk t ∨ b = blkUnis) :
    s.tableSync b = if s.hdr[b].sync then s.onHdr b (fun h => { h with syncHeld := true })
      else (s.onHdr b (fun h => { h with sync := true })).startSync b := by
  unfold State.tableSync
  rcases hb with rfl | rfl
  · simp [synced, hp]
  · rfl

section
variable {b : BlkId} {s : State}

theorem exec_tableSync_idle {t : TrkId} (hp : s.populated t = true) (hb : b = blkTrk t ∨ b = blkUnis) (hs : s.hdr[b].sync = false) :
    exec (.tableSync b) s = .next (((s.stewWrite b).onHdr b (fun h => { h with sync := true })).startSync b) := by
  have hs : ¬ (s.stewWrite b).hdr[b].sync = true := by rw [Bool.not_eq_true]; exact hs
  exact congrArg Host.Outcome.next ((tableSync_taken (s := s.stewWrite b) hp hb).trans (if_neg hs))

theorem exec_tableSync_busy {t : TrkId} (hp : s.populated t = true) (hb : b = blkTrk t ∨ b = blkUnis) (hs : s.hdr[b].sync = true) :
    exec (.tableSync b) s = .next ((s.stewWrite b).onHdr b (fun h => { h with syncHeld := true })) :=
  congrArg Host.Outcome.next ((tableSync_taken (s := s.stewWrite b) hp hb).trans (if_pos hs))

theorem exec_tableSyncDone_last (hs : s.hdr[b].sync = true) (hh : s.hdr[b].syncHeld = false) :
    exec (.tableSyncDone b) s = .next ((s.reloadTables b).onHdr b (fun h => { h with sync := false })) := by
  show execTableSyncDone b s = _
  simp only [execTableSyncDone, hs, hh, Bool.not_true, Bool.false_eq_true, if_false]

theorem exec_tableSyncDone_held (hs : s.hdr[b].sync = true) (hh : s.hdr[b].syncHeld = true) :
    exec (.tableSyncDone b) s = .next (((s.reloadTables b).onHdr b (fun h => { h with syncHeld := false })).startSync b) := by
  show execTableSyncDone b s = _
  simp only [execTableSyncDone, hs, hh, Bool.not_true, Bool.false_eq_true, if_false, if_true]

end

/-- Settles O30. The reload's reads of Chord keep every trunk engine and every block's synchronization, and where no cache holds a
copy also the data, so the entries loaded are those of the state before. -/
theorem tableSyncResults : Obligations.TableSyncResults := by
  intro t b s hp hb
  refine ⟨fun hs => ⟨_, exec_tableSync_idle hp hb hs, ?_⟩, fun hs => ⟨_, exec_tableSync_busy hp hb hs, ?_⟩,
    fun hs hh => ⟨_, exec_tableSyncDone_last hs hh, ?_⟩, fun hs hh => ⟨_, exec_tableSyncDone_held hs hh, ?_⟩⟩
  · obtain ⟨hhdr, htrk, hmap, hmem⟩ := startSync_keeps ((s.stewWrite b).onHdr b (fun h => { h with sync := true })) b
    rw [hhdr, htrk, hmap, hmem, onHdr_same]
    exact ⟨rfl, rfl, rfl, rfl, rfl⟩
  · rw [onHdr_same]
    exact ⟨hs, rfl, rfl, rfl⟩
  · rw [onHdr_same, State.onHdr_trk, State.onHdr_mem]
    refine ⟨rfl, fun hn => ⟨reloadTables_mem s hb hn, ?_⟩, ?_, fun q hq => reloadTables_other_trk s hb q hq⟩
    · rintro rfl k
      rw [reloadTables_route, (routeReads_sameArrays hn t).routeMem hn (routeReads_keepsTables s t).trk]
    · rintro k rfl
      rw [reloadTables_route]
      rfl
  · obtain ⟨hsync, -⟩ := reloadTables_hdr s hb b
    rw [(startSync_keeps _ b).1, onHdr_same]
    exact ⟨hsync.trans hs, rfl⟩

end Sys2Proof.Machine
end
